-- ==== Sys2Proof/Word.lean ====
section
/-! DEFINITION. The plain data types every other file uses: bytes, frame numbers, the part's index types and fixed-size
tables. -/

namespace Sys2Proof

/-- One byte of a frame, of a sync word or of the frame store. -/
abbrev Byte := BitVec 8

/-- A frame number: a 32-bit count that wraps (00, section 5 "Frame numbers"). -/
abbrev Frame := BitVec 32

/-- Tile ports and tile records, 0 to 15 (R4). -/
abbrev TileId := Fin 16

/-- Scene groups, 0 to 7 (R64). -/
abbrev GroupId := Fin 8

/-- Surface records, 0 to 255 (R18). -/
abbrev SurfaceId := Fin 256

/-- Placement records, 0 to 127 (R38). -/
abbrev PlacementId := Fin 128

/-- Cue inputs, 0 to 3 (R167). -/
abbrev CueId := Fin 4

/-- A table of exactly `n` rows, the form of every numbered set of records of the part. -/
structure Table (α : Type) (n : Nat) where
  rows : List α
  len : rows.length = n
  deriving DecidableEq, Repr

/-- Every row holds `a`. -/
def Table.replicate {α : Type} (n : Nat) (a : α) : Table α n :=
  ⟨List.replicate n a, by simp⟩

/-- Row `i`. -/
def Table.get {α : Type} {n : Nat} (t : Table α n) (i : Fin n) : α :=
  t.rows[i.val]'(by rw [t.len]; exact i.isLt)

/-- The table with row `i` replaced. -/
def Table.set {α : Type} {n : Nat} (t : Table α n) (i : Fin n) (a : α) : Table α n :=
  ⟨t.rows.set i.val a, by simp [t.len]⟩

/-- The table with `f` applied to row `i` alone. -/
def Table.modify {α : Type} {n : Nat} (t : Table α n) (i : Fin n) (f : α → α) : Table α n :=
  t.set i (f (t.get i))

/-- The table whose row `i` is `f i` of the row it was. -/
def Table.mapIdx {α β : Type} {n : Nat} (f : Fin n → α → β) (t : Table α n) : Table β n :=
  ⟨List.zipWith f (List.finRange n) t.rows, by simp [t.len]⟩

/-- The table whose row `i` is `f i`. -/
def Table.ofFn {α : Type} {n : Nat} (f : Fin n → α) : Table α n :=
  ⟨(List.finRange n).map f, by simp⟩

/-- The rows with their numbers, in ascending order. -/
def Table.entries {α : Type} {n : Nat} (t : Table α n) : List (Fin n × α) :=
  (List.finRange n).zip t.rows

end Sys2Proof
end

