-- ==== Sys2Proof/Config.lean ====
section
/-! DEFINITION. What an implementation fixes, and the free values: constants without a body, of which nothing can be
proved but their type. Also the unit of the model's clock. -/

namespace Sys2Proof.Config

/-- Free value (entry 4): what a byte of the frame store reads as that no upload has written since the contents last
became undefined (R36). The first argument numbers those times, the second is the byte's address. -/
opaque undefinedByte : Nat → Nat → Byte

/-- Free value (entry 9): whether every OTHER part of the chain releases RDY when STATUS reads the line (R111); the argument
numbers the readings. -/
opaque othersReleaseRdy : Nat → Bool

/-- Free value (entry 40): whether the GOUT of the part before this one stays asserted through a POLL that passes on the command link,
because that part does not take it (R191); the argument numbers the POLLs. -/
opaque goutBeforeStays : Nat → Bool

/-- Free value (entry 10): the group byte of a PLAIN word, "not meaningful" (R92). The argument is the word's frame. -/
opaque plainWordGroup : Frame → GroupId

/-- Free value (entry 10): the last-cut frame bytes of a word whose last-cut group is marked absent (R92). The argument is the
word's frame. -/
opaque absentCutFrame : Frame → Frame

/-- Free value (entry 11): the silicon revision letter IDENTIFY returns; R186 gives only that the first revision is A. -/
opaque revision : Char

/-- Free value (entry 14): when the report of a tile or a placement reaches the event block among those to one flag that fall
together (R188); a lower value comes first. The arguments are the clock and the tile's or the placement's number. -/
opaque reportRank : Nat → Nat → Nat

/-- Clock ticks in a second (DESIGN CHOICE, entry 3): every frame rate of R184 and every duration of the spec is a whole
number of ticks. -/
def ticksPerSecond : Nat := 30000000

/-- Clock ticks in a millisecond. -/
def ticksPerMilli : Nat := 30000

/-- Clock ticks in a microsecond. -/
def ticksPerMicro : Nat := 30

end Sys2Proof.Config
end

