-- ==== Sys2Proof/Syntax.lean ====
section
/-! DEFINITION. The commands and events the part takes: one constructor of `Instr` per row of spec/opcode_table.json, with
the row's operands. Fields of a host command are the numbers its payload carries (10, section 10.6), not yet checked. -/

namespace Sys2Proof

/-- The ROLE strap (R186). -/
inductive Role where
  | master
  | slave
  deriving DecidableEq, Repr

/-- The STORE strap (R186). -/
inductive StoreSize where
  | mib128
  | mib256
  | mib512
  deriving DecidableEq, Repr

/-- The strap pins and the chain-end sense, as they stand when they are sampled (R186). -/
structure Straps where
  unit : Fin 8
  role : Role
  store : StoreSize
  chainEnd : Bool
  deriving DecidableEq, Repr

/-- The grant input GIN (R191): tied asserted on the board in the first part of the chain; in any other part driven by the GOUT of
the part before it, at this level. -/
inductive Gin where
  | tied
  | driven (asserted : Bool)
  deriving DecidableEq, Repr

/-- The levels of the five shop inputs (R168) and of GIN (R191) at power-on. -/
structure InputLevels where
  cue : Table Bool 4
  blackout : Bool
  gin : Gin
  deriving DecidableEq, Repr

/-- The temperature class a tile reports (R158). -/
inductive Temperature where
  | ok
  | warm
  | hot
  deriving DecidableEq, Repr

/-- Three colour channels. In a record each is 0 to 255; in a command frame each is a number of two bytes. -/
structure Rgb where
  red : Nat
  green : Nat
  blue : Nat
  deriving DecidableEq, Repr

/-- The 27 bytes of values that PLACE and AMEND carry, as numbers (10, section 10.6). -/
structure RawValues where
  layer : Nat
  dx : Nat
  dy : Nat
  dw : Nat
  dh : Nat
  surface : Nat
  sx : Nat
  sy : Nat
  sw : Nat
  sh : Nat
  alpha : Nat
  fadeIn : Nat
  fadeOut : Nat
  runLength : Nat
  cellRate : Nat
  firstCell : Nat
  cellMode : Nat
  deriving DecidableEq, Repr

/-- What the payload of a command frame says: the 32 commands of the command code list (10, section 10.6). -/
inductive HostCmd where
  | identify
  | status
  | setTiming (rate : Nat)
  | setGeometry (panelW panelH gapX gapY : Nat)
  | setTile (tile placed column row : Nat) (trimX trimY : Int)
  | start
  | stop
  | softReset
  | defineSurface (id format width height cells basePage : Nat) (key : Option Nat)
  | upload (id offset : Nat) (chunk : List Byte)
  | dropSurface (id : Nat)
  | place (id group : Nat) (values : RawValues)
  | amend (id : Nat) (values : RawValues) (restart : Nat)
  | retire (id : Nat)
  | withdraw (id : Nat)
  | lookup (id : Nat)
  | find (x y : Nat)
  | setGroup (group kind cue edge target timeout : Nat)
  | commit (group : Nat)
  | cancel (group : Nat)
  | groupInfo (group : Nat)
  | surfaceInfo (id : Nat)
  | setBackground (colour : Rgb)
  | tilePower (selector switch : Nat) (warmUp : Option Nat)
  | tileMode (selector mode : Nat) (flat : Option Rgb) (level : Option Nat)
  | tileInfo (tile : Nat)
  | setBlackout (mode : Nat) (marks : Option (Table Nat 4))
  | clearBlackout
  | setPacing (code : Nat)
  | events
  | setEventEnables (marks : Table Nat 16)
  | poll
  deriving DecidableEq, Repr

/-- One row of the table each. The first 32 are the host commands, each sent as one command frame to unit byte `unit`; the
other 31 are the link's raw transfers, the resets, the boundaries and the expiries. -/
inductive Instr where
  | identify (unit : Nat)
  | status (unit : Nat)
  | setTiming (unit rate : Nat)
  | setGeometry (unit panelW panelH gapX gapY : Nat)
  | setTile (unit tile placed column row : Nat) (trimX trimY : Int)
  | start (unit : Nat)
  | stop (unit : Nat)
  | softReset (unit : Nat)
  | defineSurface (unit id format width height cells basePage : Nat) (key : Option Nat)
  | upload (unit id offset : Nat) (chunk : List Byte)
  | dropSurface (unit id : Nat)
  | surfaceInfo (unit id : Nat)
  | place (unit id group : Nat) (values : RawValues)
  | amend (unit id : Nat) (values : RawValues) (restart : Nat)
  | retire (unit id : Nat)
  | withdraw (unit id : Nat)
  | lookup (unit id : Nat)
  | find (unit x y : Nat)
  | setGroup (unit group kind cue edge target timeout : Nat)
  | commit (unit group : Nat)
  | cancel (unit group : Nat)
  | groupInfo (unit group : Nat)
  | setBackground (unit : Nat) (colour : Rgb)
  | tilePower (unit selector switch : Nat) (warmUp : Option Nat)
  | tileMode (unit selector mode : Nat) (flat : Option Rgb) (level : Option Nat)
  | tileInfo (unit tile : Nat)
  | setBlackout (unit mode : Nat) (marks : Option (Table Nat 4))
  | clearBlackout (unit : Nat)
  | setPacing (unit code : Nat)
  | events (unit : Nat)
  | setEventEnables (unit : Nat) (marks : Table Nat 16)
  | poll (unit : Nat)
  /-- A write transfer carrying these bytes (R177). -/
  | commandFrame (bytes : List Byte)
  /-- A read transfer of a unit; `complete` says whether it carried every byte of the answer before its release (R180). -/
  | readTransfer (unit : Nat) (complete : Bool)
  /-- GIN reads asserted (R191). -/
  | grantArrival
  /-- Power comes on with the straps, the shop inputs and GIN at these levels (R182, R186, R168, R191). -/
  | powerOn (straps : Straps) (inputs : InputLevels)
  | rstAllAssert
  /-- RST_ALL is released with the strap pins at these levels (R186). -/
  | rstAllRelease (straps : Straps)
  | rstKeepAssert
  | rstKeepRelease
  | startingEnd
  /-- The master's frame period expires; the operand says whether every OTHER part releases RDY at that moment (R91, R93). -/
  | masterFrameBoundary (othersRelease : Bool)
  /-- The boundary at which the nomination has waited its commit_timeout and RDY is held (R93). -/
  | commitTimeout
  /-- The FRAME triggers of the coming boundary, taken before its decision (R72). -/
  | frameTrigger
  /-- These bytes arrive on FSYNC (R95, R192). -/
  | syncWordArrival (bytes : List Byte)
  | syncLoss
  | freeRunBoundary
  | wordOverdue
  | runExpiry (id : PlacementId)
  | fadeComplete (id : PlacementId)
  | preparationComplete
  | lineDue (tile : TileId)
  | burstEnd
  | pacingWindow
  | uploadComplete
  | warmUpExpiry (tile : TileId)
  | trainingAttemptFail (tile : TileId)
  | tileLost (tile : TileId)
  | drainEnd (tile : TileId)
  /-- A status from the tile: its lock report and its temperature class (R158). -/
  | backChannelStatus (tile : TileId) (locked : Bool) (temperature : Temperature)
  /-- The pin of a cue stands at `level` and has held it for `heldMicros` (R168). -/
  | cueEdge (cue : CueId) (level : Bool) (heldMicros : Nat)
  /-- The blackout pin stands at `level` (asserted or not) and has held it for `heldMicros` (R168). -/
  | blackoutInputChange (level : Bool) (heldMicros : Nat)
  | startComplete
  deriving DecidableEq, Repr

/-- Status codes of responses and of broadcast results (10, section 10.6). -/
inductive Status where
  | ok
  | badCommand
  | badLength
  | badValue
  | wrongPhase
  | notMaster
  | noSuch
  | idInUse
  | inUse
  | overlap
  | scaleRange
  | groupLocked
  | groupBusy
  | retiring
  | nothingPending
  | tooLate
  | geometry
  | stillAsserted
  | outOfOrder
  | notLoading
  deriving DecidableEq, Repr

/-- The kind of a sync word, with the group of the three kinds whose group is meaningful (R92). -/
inductive WordKind where
  | plain
  | nominate (g : GroupId)
  | cut (g : GroupId)
  | abandon (g : GroupId)
  deriving DecidableEq, Repr

/-- A sync word (R92). -/
structure SyncWord where
  kind : WordKind
  frame : Frame
  cutSequence : BitVec 4
  lastCut : Option (GroupId × Frame)
  blackout : Bool
  deriving DecidableEq, Repr

/-- What a tile is sent in one frame (R151, R160). -/
inductive FrameKind where
  | picture
  | flat
  | black
  | hold
  | idle
  | none
  deriving DecidableEq, Repr

/-- The tile frame header (R162). -/
structure TileHeader where
  frameLow : BitVec 16
  lineCount : Nat
  kind : FrameKind
  deriving DecidableEq, Repr

/-- The row of the table a host command is, when its frame is sent to unit byte `unit`. -/
def HostCmd.toInstr (unit : Nat) : HostCmd → Instr
  | .identify => .identify unit
  | .status => .status unit
  | .setTiming rate => .setTiming unit rate
  | .setGeometry w h gx gy => .setGeometry unit w h gx gy
  | .setTile t p c r tx ty => .setTile unit t p c r tx ty
  | .start => .start unit
  | .stop => .stop unit
  | .softReset => .softReset unit
  | .defineSurface id f w h c b k => .defineSurface unit id f w h c b k
  | .upload id off chunk => .upload unit id off chunk
  | .dropSurface id => .dropSurface unit id
  | .place id g v => .place unit id g v
  | .amend id v r => .amend unit id v r
  | .retire id => .retire unit id
  | .withdraw id => .withdraw unit id
  | .lookup id => .lookup unit id
  | .find x y => .find unit x y
  | .setGroup g k c e t m => .setGroup unit g k c e t m
  | .commit g => .commit unit g
  | .cancel g => .cancel unit g
  | .groupInfo g => .groupInfo unit g
  | .surfaceInfo id => .surfaceInfo unit id
  | .setBackground c => .setBackground unit c
  | .tilePower s w u => .tilePower unit s w u
  | .tileMode s m f l => .tileMode unit s m f l
  | .tileInfo t => .tileInfo unit t
  | .setBlackout m i => .setBlackout unit m i
  | .clearBlackout => .clearBlackout unit
  | .setPacing c => .setPacing unit c
  | .events => .events unit
  | .setEventEnables m => .setEventEnables unit m
  | .poll => .poll unit

end Sys2Proof
end

