-- ==== Sys2Proof/Decode.lean ====
section
/-! DEFINITION. The layouts of 10, section 10.6: command frames read and written, sync words read and written, status codes,
the tile frame header. `decodeTableWord` answers for the bits of spec/opcode_table.json, which gives no row any. -/

namespace Sys2Proof

/-- A number sent lower byte first. -/
def leNat : List Byte → Nat
  | [] => 0
  | b :: bs => b.toNat + 256 * leNat bs

/-- The `count` bytes of a number, lower byte first. -/
def leBytes : (count : Nat) → Nat → List Byte
  | 0, _ => []
  | k + 1, n => BitVec.ofNat 8 n :: leBytes k (n / 256)

/-- The field of `size` bytes that begins at byte `offset` of a payload. -/
def field (payload : List Byte) (offset size : Nat) : Nat :=
  leNat ((payload.drop offset).take size)

/-- A one-byte field taken as signed: 128 to 255 stand for −128 to −1. -/
def signedByte (n : Nat) : Int :=
  if n < 128 then n else (n : Int) - 256

/-- The byte that carries a signed number. -/
def signedByteCode (n : Int) : Nat :=
  if 0 ≤ n then n.toNat else (n + 256).toNat

/-- The 27 bytes of values of PLACE and AMEND, beginning at byte `o`. -/
def fieldValues (p : List Byte) (o : Nat) : RawValues where
  layer := field p o 1
  dx := field p (o + 1) 2
  dy := field p (o + 3) 2
  dw := field p (o + 5) 2
  dh := field p (o + 7) 2
  surface := field p (o + 9) 1
  sx := field p (o + 10) 2
  sy := field p (o + 12) 2
  sw := field p (o + 14) 2
  sh := field p (o + 16) 2
  alpha := field p (o + 18) 2
  fadeIn := field p (o + 20) 1
  fadeOut := field p (o + 21) 1
  runLength := field p (o + 22) 2
  cellRate := field p (o + 24) 1
  firstCell := field p (o + 25) 1
  cellMode := field p (o + 26) 1

/-- Three channels of two bytes each, beginning at byte `o`. -/
def fieldColour (p : List Byte) (o : Nat) : Rgb :=
  ⟨field p o 2, field p (o + 2) 2, field p (o + 4) 2⟩

/-- The payload of the command with this code; none where the code names no command or the command takes no payload of this
length (R178 tests 2 and 4; 10, section 10.6 "Command payloads"). -/
def parseCommand (code : Nat) (p : List Byte) : Option HostCmd :=
  match code with
  | 1 => if p.length = 0 then some .identify else none
  | 2 => if p.length = 0 then some .status else none
  | 3 => if p.length = 1 then some (.setTiming (field p 0 1)) else none
  | 4 => if p.length = 8 then some (.setGeometry (field p 0 2) (field p 2 2) (field p 4 2) (field p 6 2)) else none
  | 5 =>
    if p.length = 6 then
      some (.setTile (field p 0 1) (field p 1 1) (field p 2 1) (field p 3 1)
        (signedByte (field p 4 1)) (signedByte (field p 5 1)))
    else none
  | 6 => if p.length = 0 then some .start else none
  | 7 => if p.length = 0 then some .stop else none
  | 8 => if p.length = 0 then some .softReset else none
  | 9 =>
    if p.length = 11 then
      some (.defineSurface (field p 0 1) (field p 1 1) (field p 2 2) (field p 4 2) (field p 6 1) (field p 7 4) none)
    else if p.length = 15 then
      some (.defineSurface (field p 0 1) (field p 1 1) (field p 2 2) (field p 4 2) (field p 6 1) (field p 7 4)
        (some (field p 11 4)))
    else none
  | 10 =>
    if 5 ≤ p.length ∧ p.length ≤ 4101 then some (.upload (field p 0 1) (field p 1 4) (p.drop 5)) else none
  | 11 => if p.length = 1 then some (.dropSurface (field p 0 1)) else none
  | 12 => if p.length = 29 then some (.place (field p 0 1) (field p 1 1) (fieldValues p 2)) else none
  | 13 => if p.length = 29 then some (.amend (field p 0 1) (fieldValues p 1) (field p 28 1)) else none
  | 14 => if p.length = 1 then some (.retire (field p 0 1)) else none
  | 15 => if p.length = 1 then some (.withdraw (field p 0 1)) else none
  | 16 => if p.length = 1 then some (.lookup (field p 0 1)) else none
  | 17 => if p.length = 4 then some (.find (field p 0 2) (field p 2 2)) else none
  | 18 =>
    if p.length = 10 then
      some (.setGroup (field p 0 1) (field p 1 1) (field p 2 1) (field p 3 1) (field p 4 4) (field p 8 2))
    else none
  | 19 => if p.length = 1 then some (.commit (field p 0 1)) else none
  | 20 => if p.length = 1 then some (.cancel (field p 0 1)) else none
  | 21 => if p.length = 1 then some (.groupInfo (field p 0 1)) else none
  | 22 => if p.length = 1 then some (.surfaceInfo (field p 0 1)) else none
  | 23 => if p.length = 6 then some (.setBackground (fieldColour p 0)) else none
  | 24 =>
    if p.length = 2 then some (.tilePower (field p 0 1) (field p 1 1) none)
    else if p.length = 4 then some (.tilePower (field p 0 1) (field p 1 1) (some (field p 2 2)))
    else none
  | 25 =>
    if p.length = 2 then some (.tileMode (field p 0 1) (field p 1 1) none none)
    else if p.length = 4 then some (.tileMode (field p 0 1) (field p 1 1) none (some (field p 2 2)))
    else if p.length = 8 then some (.tileMode (field p 0 1) (field p 1 1) (some (fieldColour p 2)) none)
    else if p.length = 10 then
      some (.tileMode (field p 0 1) (field p 1 1) (some (fieldColour p 2)) (some (field p 8 2)))
    else none
  | 26 => if p.length = 1 then some (.tileInfo (field p 0 1)) else none
  | 27 =>
    if p.length = 1 then some (.setBlackout (field p 0 1) none)
    else if p.length = 5 then some (.setBlackout (field p 0 1) (some (Table.ofFn fun i => field p (1 + i.val) 1)))
    else none
  | 28 => if p.length = 0 then some .clearBlackout else none
  | 29 => if p.length = 1 then some (.setPacing (field p 0 1)) else none
  | 30 => if p.length = 0 then some .events else none
  | 31 => if p.length = 16 then some (.setEventEnables (Table.ofFn fun i => field p i.val 1)) else none
  | 32 => if p.length = 0 then some .poll else none
  | _ => none

/-- The command code of a host command (10, section 10.6 "Command codes"). -/
def HostCmd.code : HostCmd → Nat
  | .identify => 1
  | .status => 2
  | .setTiming _ => 3
  | .setGeometry _ _ _ _ => 4
  | .setTile _ _ _ _ _ _ => 5
  | .start => 6
  | .stop => 7
  | .softReset => 8
  | .defineSurface _ _ _ _ _ _ _ => 9
  | .upload _ _ _ => 10
  | .dropSurface _ => 11
  | .place _ _ _ => 12
  | .amend _ _ _ => 13
  | .retire _ => 14
  | .withdraw _ => 15
  | .lookup _ => 16
  | .find _ _ => 17
  | .setGroup _ _ _ _ _ _ => 18
  | .commit _ => 19
  | .cancel _ => 20
  | .groupInfo _ => 21
  | .surfaceInfo _ => 22
  | .setBackground _ => 23
  | .tilePower _ _ _ => 24
  | .tileMode _ _ _ _ => 25
  | .tileInfo _ => 26
  | .setBlackout _ _ => 27
  | .clearBlackout => 28
  | .setPacing _ => 29
  | .events => 30
  | .setEventEnables _ => 31
  | .poll => 32

/-- Whether a code names a command of the command code list (R178 test 2). -/
def knownCode (code : Nat) : Bool := 1 ≤ code && code ≤ 32

/-- The eight data-returning commands, which may not be broadcast (R178 test 3). -/
def dataReturning (code : Nat) : Bool := [1, 2, 16, 17, 21, 22, 26, 30].contains code

/-- A broadcast frame's unit byte (R177). -/
def broadcastUnit : Nat := 15

/-- Test 3 of R178: a data-returning command broadcast, or POLL addressed to one unit. -/
def wrongAddressing (unit code : Nat) : Bool :=
  (unit = broadcastUnit && dataReturning code) || (unit ≠ broadcastUnit && code = 32)

/-- The values' 27 bytes. -/
def RawValues.bytes (v : RawValues) : List Byte :=
  leBytes 1 v.layer ++ leBytes 2 v.dx ++ leBytes 2 v.dy ++ leBytes 2 v.dw ++ leBytes 2 v.dh ++ leBytes 1 v.surface
    ++ leBytes 2 v.sx ++ leBytes 2 v.sy ++ leBytes 2 v.sw ++ leBytes 2 v.sh ++ leBytes 2 v.alpha
    ++ leBytes 1 v.fadeIn ++ leBytes 1 v.fadeOut ++ leBytes 2 v.runLength
    ++ leBytes 1 v.cellRate ++ leBytes 1 v.firstCell ++ leBytes 1 v.cellMode

/-- A colour's six bytes. -/
def Rgb.bytes (c : Rgb) : List Byte := leBytes 2 c.red ++ leBytes 2 c.green ++ leBytes 2 c.blue

/-- The payload of a host command (10, section 10.6 "Command payloads"). -/
def HostCmd.payload : HostCmd → List Byte
  | .identify => []
  | .status => []
  | .setTiming rate => leBytes 1 rate
  | .setGeometry w h gx gy => leBytes 2 w ++ leBytes 2 h ++ leBytes 2 gx ++ leBytes 2 gy
  | .setTile t p c r tx ty =>
    leBytes 1 t ++ leBytes 1 p ++ leBytes 1 c ++ leBytes 1 r
      ++ leBytes 1 (signedByteCode tx) ++ leBytes 1 (signedByteCode ty)
  | .start => []
  | .stop => []
  | .softReset => []
  | .defineSurface id f w h c b k =>
    leBytes 1 id ++ leBytes 1 f ++ leBytes 2 w ++ leBytes 2 h ++ leBytes 1 c ++ leBytes 4 b
      ++ (match k with | none => [] | some n => leBytes 4 n)
  | .upload id off chunk => leBytes 1 id ++ leBytes 4 off ++ chunk
  | .dropSurface id => leBytes 1 id
  | .place id g v => leBytes 1 id ++ leBytes 1 g ++ v.bytes
  | .amend id v r => leBytes 1 id ++ v.bytes ++ leBytes 1 r
  | .retire id => leBytes 1 id
  | .withdraw id => leBytes 1 id
  | .lookup id => leBytes 1 id
  | .find x y => leBytes 2 x ++ leBytes 2 y
  | .setGroup g k c e t m =>
    leBytes 1 g ++ leBytes 1 k ++ leBytes 1 c ++ leBytes 1 e ++ leBytes 4 t ++ leBytes 2 m
  | .commit g => leBytes 1 g
  | .cancel g => leBytes 1 g
  | .groupInfo g => leBytes 1 g
  | .surfaceInfo id => leBytes 1 id
  | .setBackground c => c.bytes
  | .tilePower s w u => leBytes 1 s ++ leBytes 1 w ++ (match u with | none => [] | some n => leBytes 2 n)
  | .tileMode s m f l =>
    leBytes 1 s ++ leBytes 1 m ++ (match f with | none => [] | some c => c.bytes)
      ++ (match l with | none => [] | some n => leBytes 2 n)
  | .tileInfo t => leBytes 1 t
  | .setBlackout m i =>
    leBytes 1 m ++ (match i with | none => [] | some t => t.rows.flatMap (leBytes 1))
  | .clearBlackout => []
  | .setPacing c => leBytes 1 c
  | .events => []
  | .setEventEnables m => m.rows.flatMap (leBytes 1)
  | .poll => []

/-- The command frame that carries a host command to a unit byte (10, section 10.6 "Command frame"). -/
def encodeFrame (unit : Nat) (c : HostCmd) : List Byte :=
  leBytes 1 unit ++ leBytes 1 c.code ++ leBytes 2 c.payload.length ++ c.payload

/-- A frame's header and the bytes after it. -/
structure FrameHeader where
  unit : Nat
  code : Nat
  length : Nat
  rest : List Byte
  deriving DecidableEq, Repr

/-- The header of a write transfer's bytes; none where there are fewer than four (R177). -/
def splitFrame : List Byte → Option FrameHeader
  | u :: c :: l0 :: l1 :: rest => some ⟨u.toNat, c.toNat, l0.toNat + 256 * l1.toNat, rest⟩
  | _ => none

/-- Tests 1 to 4 of R178 on a frame, the first failing test giving the status. -/
def frameRefusal (h : FrameHeader) : Option Status :=
  if h.length > 4101 ∨ h.rest.length ≠ h.length then some .badLength
  else if knownCode h.code = false then some .badCommand
  else if wrongAddressing h.unit h.code then some .badCommand
  else if parseCommand h.code h.rest = none then some .badLength
  else none

/-- The code of a status (10, section 10.6 "Response frame"). -/
def Status.code : Status → Nat
  | .ok => 0
  | .badCommand => 1
  | .badLength => 2
  | .badValue => 3
  | .wrongPhase => 4
  | .notMaster => 5
  | .noSuch => 6
  | .idInUse => 7
  | .inUse => 8
  | .overlap => 9
  | .scaleRange => 10
  | .groupLocked => 11
  | .groupBusy => 12
  | .retiring => 13
  | .nothingPending => 14
  | .tooLate => 15
  | .geometry => 16
  | .stillAsserted => 17
  | .outOfOrder => 18
  | .notLoading => 19

/-- The NOT_READY byte (R180). -/
def notReadyByte : Byte := 255

/-- The check byte: the sum of bytes 0 to 12, modulo 256. -/
def checkSum (bytes : List Byte) : Byte := bytes.foldl (· + ·) 0

/-- The kind byte and the group byte of a sync word; the group of a PLAIN word is not meaningful. -/
def wordKindOf (kind group : Nat) : WordKind :=
  match kind with
  | 0 => .plain
  | 1 => .nominate (Fin.ofNat 8 group)
  | 2 => .cut (Fin.ofNat 8 group)
  | _ => .abandon (Fin.ofNat 8 group)

/-- The sync word that fourteen bytes carry; none where the check byte or a field is out of place (R192), or where there are
not fourteen bytes. -/
def parseSyncWord (bytes : List Byte) : Option SyncWord :=
  let body := bytes.take 13
  let kind := field bytes 0 1
  let group := field bytes 1 1
  let sequence := field bytes 6 1
  let lastGroup := field bytes 7 1
  let flag := field bytes 12 1
  if bytes.length ≠ 14 then none
  else if field bytes 13 1 ≠ (checkSum body).toNat then none
  else if kind > 3 ∨ group > 7 ∨ sequence > 15 ∨ (8 ≤ lastGroup ∧ lastGroup ≤ 254) ∨ flag > 1 then none
  else some {
    kind := wordKindOf kind group
    frame := BitVec.ofNat 32 (field bytes 2 4)
    cutSequence := BitVec.ofNat 4 sequence
    lastCut := if lastGroup = 255 then none else some (Fin.ofNat 8 lastGroup, BitVec.ofNat 32 (field bytes 8 4))
    blackout := flag = 1 }

/-- The kind byte of a word. -/
def WordKind.code : WordKind → Nat
  | .plain => 0
  | .nominate _ => 1
  | .cut _ => 2
  | .abandon _ => 3

/-- The group byte of a word; a free value for PLAIN (entry 10). -/
def SyncWord.groupByte (w : SyncWord) : Nat :=
  match w.kind with
  | .plain => (Config.plainWordGroup w.frame).val
  | .nominate g => g.val
  | .cut g => g.val
  | .abandon g => g.val

/-- Bytes 0 to 12 of a word the master sends. -/
def SyncWord.body (w : SyncWord) : List Byte :=
  leBytes 1 w.kind.code ++ leBytes 1 w.groupByte ++ leBytes 4 w.frame.toNat ++ leBytes 1 w.cutSequence.toNat
    ++ (match w.lastCut with
        | none => leBytes 1 255 ++ leBytes 4 (Config.absentCutFrame w.frame).toNat
        | some (g, f) => leBytes 1 g.val ++ leBytes 4 f.toNat)
    ++ leBytes 1 (if w.blackout then 1 else 0)

/-- The fourteen bytes of a word the master sends, with a correct check (R192). -/
def SyncWord.bytes (w : SyncWord) : List Byte := w.body ++ [checkSum w.body]

/-- The line kind's code in the tile frame header; NONE sends no header, and no code stands for it. -/
def FrameKind.code : FrameKind → Nat
  | .picture => 0
  | .flat => 1
  | .black => 2
  | .hold => 3
  | .idle => 4
  | .none => 0

/-- The five bytes of a tile frame header. -/
def TileHeader.bytes (h : TileHeader) : List Byte :=
  leBytes 2 h.frameLow.toNat ++ leBytes 2 h.lineCount ++ leBytes 1 h.kind.code

/-- The command that a word spells by the bits of spec/opcode_table.json. The table gives no row any bits (DEDUCED from its
empty `fields`, entry 12), so no word spells a command. -/
def decodeTableWord (_nbits _w : Nat) : Option Instr := none

end Sys2Proof
end

