-- ==== Sys2Proof/Machine/State.lean ====
section
/-! DEFINITION. Every piece of state the spec gives the part, as plain data; the fault and refusal reasons; the state right
after power-on. A record whose fields are "present when" its state says so is an inductive type with one constructor per
state, so that an absent field has nowhere to stand. -/

namespace Sys2Proof.Machine

/-- The phase of the part (R182). -/
inductive Phase where
  | starting
  | config
  | running
  deriving DecidableEq, Repr

/-- The frame rates SET_TIMING offers (R184). -/
inductive Rate where
  | hz24
  | hz25
  | hz30
  | hz50
  | hz60
  deriving DecidableEq, Repr

/-- The geometry setting (R2). -/
structure Geometry where
  panelW : Nat
  panelH : Nat
  gapX : Nat
  gapY : Nat
  deriving DecidableEq, Repr

/-- A rectangle: left edge, top edge, width, height (00, section 5 "Rectangles"). -/
structure Rect where
  x : Nat
  y : Nat
  w : Nat
  h : Nat
  deriving DecidableEq, Repr

/-- The held geometry: a copy of the setting and each tile's visible rectangle, present or absent (R8). -/
structure HeldGeometry where
  setting : Geometry
  rects : Table (Option Rect) 16
  deriving DecidableEq, Repr

/-- What the host asks a tile to show (R150). -/
inductive Mode where
  | picture
  | flat
  | black
  | hold
  | idle
  deriving DecidableEq, Repr

/-- A tile record: the geometry fields of R4 and the fields of R150. `warmUp` is in milliseconds. -/
structure TileRec where
  placed : Bool
  column : Nat
  row : Nat
  trimX : Int
  trimY : Int
  mode : Mode
  flat : Rgb
  level : Nat
  warmUp : Nat
  deriving DecidableEq, Repr

/-- The step a drain has reached (R151). -/
inductive DrainStage where
  | beforeBlack
  | blackSent
  deriving DecidableEq, Repr

/-- The state of a tile port with the fields that state holds (R151). `endsAt` is the clock time at which warm_up_left reaches
0 (entry 3). `restart` is restart_after_drain, which is no in every other state (R151, R152, R156). -/
inductive PortState where
  | off
  | powering (endsAt : Nat)
  | training (attempt attemptFrames : Nat)
  | up
  | lost
  | draining (stage : DrainStage) (restart : Bool)
  | fault
  deriving DecidableEq, Repr

/-- The name of a port state, as TILE_CHANGE and TILE_POWER report it (R151, R152). -/
inductive PortName where
  | off
  | powering
  | training
  | up
  | lost
  | draining
  | fault
  deriving DecidableEq, Repr

/-- A port record (R151); `lockSeen` says whether a status reporting lock was taken during the frame in progress (R155). -/
structure Port where
  state : PortState
  missed : Nat
  temperature : Temperature
  lockSeen : Bool
  deriving DecidableEq, Repr

/-- Pixel formats (R18). -/
inductive Format where
  | full
  | half
  deriving DecidableEq, Repr

/-- A key: a stored pixel value shown as transparent (R21). -/
inductive Key where
  | half (value : Nat)
  | full (red green blue : Nat)
  deriving DecidableEq, Repr

/-- The description of a surface (R18); cell_height, total_bytes and page_count follow from it. -/
structure Desc where
  format : Format
  width : Nat
  height : Nat
  cells : Nat
  basePage : Nat
  key : Option Key
  deriving DecidableEq, Repr

/-- The load state of a surface, with its description; `loaded` of a READY surface is its total_bytes (R28). -/
inductive SurfaceState where
  | empty
  | loading (desc : Desc) (loaded : Nat)
  | ready (desc : Desc)
  deriving DecidableEq, Repr

/-- The name of a load state. -/
inductive LoadName where
  | empty
  | loading
  | ready
  deriving DecidableEq, Repr

/-- A surface record (R18). -/
structure SurfaceRec where
  state : SurfaceState
  refs : Nat
  deriving DecidableEq, Repr

/-- What happens after the last flipbook cell (R39). -/
inductive CellMode where
  | loop
  | onceHold
  | onceRetire
  deriving DecidableEq, Repr

/-- A set of placement values as taken, with its derived steps and end_age (R39, R40). -/
structure Values where
  layer : Nat
  dx : Nat
  dy : Nat
  dw : Nat
  dh : Nat
  surface : SurfaceId
  sx : Nat
  sy : Nat
  sw : Nat
  sh : Nat
  stepX : Nat
  stepY : Nat
  alpha : Nat
  fadeIn : Nat
  fadeOut : Nat
  runLength : Nat
  cellRate : Nat
  firstCell : Nat
  cellMode : CellMode
  endAge : Option Nat
  deriving DecidableEq, Repr

/-- A pending amendment (R41). -/
inductive Pending where
  | replace (values : Values) (restart : Bool)
  | retire
  deriving DecidableEq, Repr

/-- The kind of a pending amendment, as responses report it. -/
inductive PendingKind where
  | replace
  | retire
  deriving DecidableEq, Repr

/-- A placement record (R38): each state with the fields it holds. -/
inductive Placement where
  | free
  | staged (group : GroupId) (values : Values)
  | live (group : GroupId) (values : Values) (liveSince valuesSince : Frame) (pending : Option Pending)
  | fading (group : GroupId) (values : Values) (liveSince valuesSince fadeStart : Frame)
  deriving DecidableEq, Repr

/-- The name of a placement state. -/
inductive PlacementName where
  | free
  | staged
  | live
  | fading
  deriving DecidableEq, Repr

/-- The change of a cue that fires a CUE trigger (R64). -/
inductive Edge where
  | rising
  | falling
  | any
  | level
  deriving DecidableEq, Repr

/-- A trigger kind with its fields (R64). -/
inductive Trigger where
  | immediate
  | cue (cue : CueId) (edge : Edge)
  | frame (target : Frame)
  deriving DecidableEq, Repr

/-- The state of a group; nominate_frame is present in NOMINATED and IN_DOUBT (R64). -/
inductive GroupState where
  | idle
  | armed
  | due
  | nominated (frame : Frame)
  | inDoubt (frame : Frame)
  deriving DecidableEq, Repr

/-- The name of a group state. -/
inductive GroupName where
  | idle
  | armed
  | due
  | nominated
  | inDoubt
  deriving DecidableEq, Repr

/-- A group record (R64). -/
structure GroupRec where
  state : GroupState
  trigger : Trigger
  commitTimeout : Nat
  lastCutFrame : Option Frame
  cuts : BitVec 16
  abandons : BitVec 16
  deriving DecidableEq, Repr

/-- Whether the part follows the chain's frame timing (R90). -/
inductive SyncState where
  | locked
  | lost
  | unlocked
  deriving DecidableEq, Repr

/-- The chain sync unit (R90). `lossTimer` is the clock time of the last word while the timer runs; `lastCounted` is the frame
and the clock time of the previous word counted toward lock (R104); `timing` says whether the part's own frame timing runs and
`boundaryAt` when the frame in progress began (R91, R102); `fsync` is the last word sent (R92). -/
structure Csu where
  frame : Frame
  sync : SyncState
  cutSequence : BitVec 4
  lastCut : Option (GroupId × Frame)
  nomination : Option (GroupId × Frame)
  readinessGiven : Bool
  desyncHold : Option GroupId
  lockRun : Nat
  lastCounted : Option (Frame × Nat)
  lossTimer : Option Nat
  rdyReleased : Bool
  blackoutFlag : Bool
  timing : Bool
  boundaryAt : Nat
  fsync : Option SyncWord
  deriving DecidableEq, Repr

/-- The preparation state with its group (R112). -/
inductive Prep where
  | none
  | inFlight (group : GroupId)
  | complete (group : GroupId)
  deriving DecidableEq, Repr

/-- A coverage list with its exclusion count (R112). -/
structure Coverage where
  ids : List PlacementId
  excluded : Nat
  deriving DecidableEq, Repr

/-- The coverage builder (R112). -/
structure Cvb where
  active : Table Coverage 16
  shadow : Table (Option Coverage) 16
  prep : Prep
  deriving DecidableEq, Repr

/-- What the compositor draws of one record in the frame in progress: its values, cell and effective weight, and its surface
(R125, R130, R131). -/
structure Entry where
  values : Values
  cell : Nat
  weight : Nat
  desc : Option Desc
  deriving DecidableEq, Repr

/-- The frame in progress on one port: what was decided at its boundary (R159, R160, R161), the state it is composed from
(R125), and the number of the line next to be sent (R138). -/
structure FrameRec where
  kind : FrameKind
  level : Nat
  temperature : Temperature
  flat : Rgb
  panelW : Nat
  panelH : Nat
  originX : Nat
  originY : Nat
  entries : List Entry
  nextLine : Nat
  deriving DecidableEq, Repr

/-- The compositor's state for one tile: the formed line that waits for its due time, the previous line sent, the underrun
count (R136, R145, R146). -/
structure CmpTile where
  formed : Option (List Rgb)
  previous : Option (List Rgb)
  underruns : Nat
  deriving DecidableEq, Repr

/-- What a picture link carries: nothing, the training pattern, or the frame in progress (R151, column "What the tile is sent"). -/
inductive LinkDrive where
  | nothing
  | pattern
  | frame (kind : FrameKind)
  deriving DecidableEq, Repr

/-- What a port last put on its picture link of a frame: a header and a line (R161, R162). Whether the link carries a frame or the
training pattern follows from the port's state: `State.linkDrive`. -/
structure LinkOut where
  header : Option TileHeader
  line : Option (List Rgb)
  deriving DecidableEq, Repr

/-- A line fetch: its line, its due time and the runs still to be read, each a first byte and a length (R136, R139). -/
structure Fetch where
  line : Nat
  due : Nat
  runs : List (Nat × Nat)
  deriving DecidableEq, Repr

/-- An upload write: its start byte, the bytes still to be written, the bursts written (R136, R143). -/
structure UploadWrite where
  startByte : Nat
  data : List Byte
  bursts : Nat
  deriving DecidableEq, Repr

/-- Who holds the store. A fetch burst whose fetch was cancelled is `stale` (R145). -/
inductive BurstKind where
  | fetch (tile : TileId) (stale : Bool)
  | load
  deriving DecidableEq, Repr

/-- The burst in progress: its kind, its first byte, its length and its end (R137). -/
structure Burst where
  kind : BurstKind
  address : Nat
  length : Nat
  endsAt : Nat
  deriving DecidableEq, Repr

/-- The frame store controller (R136). `budget` is in microseconds; `owed` says that the guaranteed burst of the window in
progress has not been granted yet (R140, R142). `serving` is the tile whose fetch is being served (R140, entry 41). -/
structure Fsc where
  fetches : Table (Option Fetch) 16
  upload : Option UploadWrite
  burst : Option Burst
  pacing : Fin 4
  budget : Nat
  loadMark : Bool
  waitMark : Bool
  owed : Bool
  serving : Option TileId
  windowStart : Nat
  deriving DecidableEq, Repr

/-- How the blackout input acts (R167). -/
inductive BlackoutMode where
  | off
  | level
  | latch
  deriving DecidableEq, Repr

/-- The cue and blackout inputs (R167). A cue level is absent until the detector is sampled. `cueSampledAt` and `blackoutSampledAt`
are the clock times at which the detectors were last sampled, from which a change is timed (R168). -/
structure Cbi where
  cue : Table (Option Bool) 4
  inversion : Table Bool 4
  input : Bool
  mode : BlackoutMode
  latch : Bool
  state : Bool
  cueSampledAt : Nat
  blackoutSampledAt : Nat
  deriving DecidableEq, Repr

/-- The input pins whose levels the part reads (00, section 3). `gin` is the grant input with its
wiring (R191, entry 40). -/
structure Pins where
  cue : Table Bool 4
  blackout : Bool
  rstAll : Bool
  rstKeep : Bool
  gin : Gin
  deriving DecidableEq, Repr

/-- Why a tile offends (R9). -/
inductive GeometryReason where
  | spanX
  | spanY
  | duplicate
  deriving DecidableEq, Repr

/-- The reasons of DESYNC (R107). -/
inductive DesyncReason where
  | frameBack
  | sequence
  | secondNomination
  | relockGap
  deriving DecidableEq, Repr

/-- The direction of a cue edge (R169). -/
inductive Direction where
  | rising
  | falling
  deriving DecidableEq, Repr

/-- The detail of an event report (R188), one constructor per flag. -/
inductive Detail where
  | frameTick (frame : Frame)
  | cutDone (group : GroupId) (sequence : BitVec 4) (frame : Frame)
  | commitAbandoned (group : GroupId) (frame : Frame)
  | inDoubt (group : GroupId) (nominateFrame : Frame)
  | desync (reason : DesyncReason) (wordFrame : Frame) (wordSequence localSequence : BitVec 4) (groups : List GroupId)
  | surfaceReady (surface : SurfaceId)
  | tileChange (tile : TileId) (left entered : PortName) (attempt : Option Nat) (frame : Frame)
  | tileHot (tile : TileId) (frame : Frame)
  | underrun (tile : TileId) (frame : Frame) (line : Nat)
  | overcover (tiles : Nat) (lowest : TileId) (count : Nat)
  | syncLost (frame : Frame)
  | syncRegained (frame : Frame)
  | cue (cue : CueId) (direction : Direction)
  | blackout (frame : Frame)
  | pendingDiscarded (id : PlacementId) (surface : SurfaceId)
  | linkOverrun (unit code : Nat)
  deriving DecidableEq, Repr

/-- A set event flag: the latest detail, the repeat count and the mask gathered (R188). -/
structure FlagRec where
  detail : Detail
  repeats : Nat
  mask : BitVec 16
  deriving DecidableEq, Repr

/-- The event block (R188). -/
structure Evb where
  flags : Table (Option FlagRec) 16
  enables : Table Bool 16
  deriving DecidableEq, Repr

/-- IDENTIFY's answer (R186). -/
structure IdentityReport where
  family : Nat
  part : Nat
  revision : Char
  straps : Straps
  deriving DecidableEq, Repr

/-- STATUS's answer (R187, with R111, R124, R149, R176, R190). -/
structure StatusReport where
  phase : Phase
  rate : Rate
  straps : Straps
  lastBroadcast : Option (Nat × Status)
  sync : SyncState
  frame : Frame
  cutSequence : BitVec 4
  lastCut : Option (GroupId × Frame)
  nomination : Option (GroupId × Frame)
  heldGroup : Option GroupId
  readinessGiven : Bool
  desyncHold : Option GroupId
  rdyReleased : Bool
  rdyLineReleased : Bool
  prep : Prep
  pacing : Fin 4
  uploadBytesLeft : Option Nat
  budget : Nat
  cue : Table (Option Bool) 4
  inversion : Table Bool 4
  blackoutInput : Bool
  blackoutMode : BlackoutMode
  latch : Bool
  blackoutState : Bool
  blackoutFlag : Bool
  flagsSet : Table Bool 16
  enables : Table Bool 16
  wantsAttention : Bool
  deriving DecidableEq, Repr

/-- SURFACE_INFO's answer; `desc` and the fields after it are absent for an EMPTY record (R34). -/
structure SurfaceReport where
  state : LoadName
  desc : Option Desc
  cellHeight : Option Nat
  pageCount : Option Nat
  totalBytes : Option Nat
  loaded : Option Nat
  refs : Nat
  deriving DecidableEq, Repr

/-- What LOOKUP says of a LIVE or FADING record at the current frame number (R61). -/
structure ScheduleReport where
  age : Nat
  cell : Nat
  fadeWeight : Nat
  effectiveWeight : Nat
  deriving DecidableEq, Repr

/-- LOOKUP's answer for a record that is not FREE; a REPLACE carries its surface, destination and restart flag (R61). -/
structure LookupReport where
  state : PlacementName
  group : GroupId
  values : Values
  liveSince : Option Frame
  valuesSince : Option Frame
  fadeStart : Option Frame
  pending : Option PendingKind
  pendingReplace : Option (SurfaceId × Rect × Bool)
  schedule : Option ScheduleReport
  covered : Table Bool 16
  deriving DecidableEq, Repr

/-- One entry of FIND's answer (R62). -/
structure FindEntry where
  id : PlacementId
  layer : Nat
  state : PlacementName
  shown : Bool
  deriving DecidableEq, Repr

/-- GROUP_INFO's answer (R89). The due queue and the position are absent on a slave. -/
structure GroupReport where
  state : GroupName
  trigger : Trigger
  commitTimeout : Nat
  nominateFrame : Option Frame
  lastCutFrame : Option Frame
  cuts : BitVec 16
  abandons : BitVec 16
  position : Option Nat
  dueQueue : Option (List GroupId)
  framesRemaining : Option Nat
  staged : Nat
  live : Nat
  fading : Nat
  pendingReplace : Nat
  pendingRetire : Nat
  surfacesNotReady : Nat
  cutSequence : BitVec 4
  deriving DecidableEq, Repr

/-- TILE_INFO's answer (R164, R17, R124, R146); `warmUpLeft` is in milliseconds. restart_after_drain is held in every state, as no
outside DRAINING (R151). -/
structure TileReport where
  tile : TileRec
  setting : Geometry
  held : Option Rect
  portState : PortName
  rail : Bool
  attempt : Option Nat
  attemptFrames : Option Nat
  warmUpLeft : Option Nat
  missed : Nat
  drainStage : Option DrainStage
  restartAfterDrain : Bool
  temperature : Temperature
  kind : FrameKind
  level : Nat
  temperatureInForce : Temperature
  underruns : Nat
  active : Coverage
  shadow : Option Coverage
  deriving DecidableEq, Repr

/-- One flag of EVENTS's answer; the mask is present for the four flags that gather one (R189). -/
structure FlagReport where
  flag : Fin 16
  detail : Detail
  repeats : Nat
  mask : Option (BitVec 16)
  deriving DecidableEq, Repr

/-- The answer of a POLL: NONE, or the unit and the set of its flags that are set (R191). -/
inductive PollAnswer where
  | none
  | flags (unit : Fin 8) (set : Table Bool 16)
  deriving DecidableEq, Repr

/-- The payload of a response, as named fields (entry 8). -/
inductive Payload where
  | empty
  | identity (report : IdentityReport)
  | status (report : StatusReport)
  | geometryFault (tile : TileId) (reason : GeometryReason)
  | defined (pageCount totalBytes : Nat)
  | references (count : Nat)
  | overlapping (surface : SurfaceId)
  | loadState (state : LoadName)
  | loadedSoFar (loaded : Nat)
  | uploaded (taken loaded : Nat)
  | surface (report : SurfaceReport)
  | recordInUse (state : PlacementName) (group : GroupId)
  | placed (stepX stepY : Nat) (endAge : Option Nat)
  | amended (stepX stepY : Nat) (endAge : Option Nat) (dropped : Option PendingKind)
  | fadeStart (frame : Frame)
  | withdrawn (kind : PendingKind)
  | lookupFree
  | lookup (report : LookupReport)
  | found (entries : List FindEntry) (truncated : Bool)
  | groupState (state : GroupName)
  | commitTimeout (frames : Nat)
  | committedDue (position : Nat)
  | committedArmed (framesRemaining : Option Nat)
  | frameNow (frame : Frame)
  | cancelled (was : GroupName)
  | nominatedAt (frame : Frame)
  | group (report : GroupReport)
  | portStates (states : List (TileId × PortName))
  | levels (levels : List (TileId × Nat))
  | tile (report : TileReport)
  | blackout (mode : BlackoutMode) (latch state : Bool)
  | pacing (code : Fin 4)
  | events (flags : List FlagReport)
  | poll (answer : PollAnswer)
  deriving DecidableEq, Repr

/-- A response frame (R180; 10, section 10.6). -/
structure Response where
  status : Status
  code : Nat
  overrun : Bool
  payload : Payload
  deriving DecidableEq, Repr

/-- What the response data line carried in the last read transfer (R180). -/
inductive ReadOut where
  | idleLine
  | notReady
  | frame (response : Response)
  deriving DecidableEq, Repr

/-- A command whose result comes in a later step (R179): START, or an UPLOAD with its surface and the bytes taken. -/
inductive Job where
  | start
  | upload (surface : SurfaceId) (taken : Nat)
  deriving DecidableEq, Repr

/-- The executing command (R179). -/
structure Executing where
  code : Nat
  broadcast : Bool
  overrun : Bool
  job : Job
  deriving DecidableEq, Repr

/-- The POLL grant state (R191). A part drives GOUT as GIN reads while it is `passing`, and releases GOUT otherwise:
`State.goutAsserted`. -/
inductive Grant where
  | passing
  | awaiting
  | holding
  deriving DecidableEq, Repr

/-- The command link controller (R185 and 00, section 2). -/
structure Clc where
  rx : List Byte
  executing : Option Executing
  response : Option Response
  lastBroadcast : Option (Nat × Status)
  straps : Straps
  grant : Grant
  pollAnswer : Option PollAnswer
  readOut : ReadOut
  deriving DecidableEq, Repr

/-- The whole part, with the queue of commands and events that wait. -/
structure State where
  pending : List Instr
  now : Nat
  phase : Phase
  startingEnd : Nat
  pins : Pins
  clc : Clc
  rate : Rate
  rateNow : Rate
  geo : Geometry
  held : HeldGeometry
  tiles : Table TileRec 16
  ports : Table Port 16
  frames : Table FrameRec 16
  cmp : Table CmpTile 16
  links : Table LinkOut 16
  bg : Rgb
  bgNow : Rgb
  sdir : Table SurfaceRec 256
  store : List Host.Cell
  storeEpoch : Nat
  fsc : Fsc
  ptab : Table Placement 128
  groups : Table GroupRec 8
  due : List GroupId
  csu : Csu
  cvb : Cvb
  cbi : Cbi
  evb : Evb
  freeCount : Nat
  deriving DecidableEq, Repr

/-- Why a step stops. -/
inductive Fault where
  /-- A burst moves bytes outside the strapped store: raised by BURST_END, and by UPLOAD_COMPLETE where it ends a burst. Safe:
  the spec keeps every surface inside the store (R25), so the part does no such access (entry 5). -/
  | outsideStore (address : Nat)
  deriving DecidableEq, Repr

/-- Why a step has no meaning. -/
inductive Refusal where
  /-- An arm of `exec` that has no meaning yet. Safe. No arm answers so. -/
  | notModelled (mnemonic : String)
  deriving DecidableEq, Repr

/-- The geometry setting after power-on (R2). -/
def Geometry.powerOn : Geometry := ⟨512, 512, 0, 0⟩

/-- A tile record after power-on (R4, R150). -/
def TileRec.powerOn : TileRec := ⟨false, 0, 0, 0, 0, .black, ⟨0, 0, 0⟩, 256, 300⟩

/-- A port record after power-on (R151). -/
def Port.powerOn : Port := ⟨.off, 0, .ok, false⟩

/-- No frame in progress (R151: frame kind NONE, frame level 256). -/
def FrameRec.powerOn : FrameRec := ⟨.none, 256, .ok, ⟨0, 0, 0⟩, 512, 512, 0, 0, [], 0⟩

/-- The compositor's state for a tile after every reset (R135, R146). -/
def CmpTile.reset : CmpTile := ⟨none, none, 0⟩

/-- A group record after power-on (R88). -/
def GroupRec.powerOn : GroupRec := ⟨.idle, .immediate, 30, none, 0, 0⟩

/-- The chain sync unit after power-on (R110). -/
def Csu.powerOn (role : Role) : Csu where
  frame := 0
  sync := match role with | .master => .locked | .slave => .unlocked
  cutSequence := 0
  lastCut := none
  nomination := none
  readinessGiven := false
  desyncHold := none
  lockRun := 0
  lastCounted := none
  lossTimer := none
  rdyReleased := false
  blackoutFlag := false
  timing := false
  boundaryAt := 0
  fsync := none

/-- The coverage builder after every reset (R112). -/
def Cvb.reset : Cvb := ⟨Table.replicate 16 ⟨[], 0⟩, Table.replicate 16 none, .none⟩

/-- The frame store controller after power-on (R136). -/
def Fsc.powerOn : Fsc where
  fetches := Table.replicate 16 none
  upload := none
  burst := none
  pacing := 1
  budget := 40
  loadMark := false
  waitMark := false
  owed := false
  serving := none
  windowStart := 0

/-- The cue and blackout inputs after power-on, the blackout input sampled at the time `now` (R167, R168). -/
def Cbi.powerOn (blackoutPin : Bool) (now : Nat) : Cbi where
  cue := Table.replicate 4 none
  inversion := Table.replicate 4 false
  input := blackoutPin
  mode := .off
  latch := false
  state := false
  cueSampledAt := 0
  blackoutSampledAt := now

/-- The command link controller after power-on (R185). -/
def Clc.powerOn (straps : Straps) : Clc where
  rx := []
  executing := none
  response := none
  lastBroadcast := none
  straps := straps
  grant := .passing
  pollAnswer := none
  readOut := .idleLine

/-- The straps State.reset is sampled with (DESIGN CHOICE, entry 1). -/
def Straps.alone : Straps := ⟨0, .master, .mib128, true⟩

/-- The machine right after power-on, in STARTING for 40 ms (R182, and each chapter's reset table), of a part used alone,
the first of its chain, whose shop inputs are low (entry 1). -/
def State.reset : State where
  pending := []
  now := 0
  phase := .starting
  startingEnd := 40 * Config.ticksPerMilli
  pins := ⟨Table.replicate 4 false, false, false, false, .tied⟩
  clc := Clc.powerOn Straps.alone
  rate := .hz60
  rateNow := .hz60
  geo := Geometry.powerOn
  held := ⟨Geometry.powerOn, Table.replicate 16 none⟩
  tiles := Table.replicate 16 TileRec.powerOn
  ports := Table.replicate 16 Port.powerOn
  frames := Table.replicate 16 FrameRec.powerOn
  cmp := Table.replicate 16 CmpTile.reset
  links := Table.replicate 16 ⟨none, none⟩
  bg := ⟨0, 0, 0⟩
  bgNow := ⟨0, 0, 0⟩
  sdir := Table.replicate 256 ⟨.empty, 0⟩
  store := []
  storeEpoch := 0
  fsc := Fsc.powerOn
  ptab := Table.replicate 128 .free
  groups := Table.replicate 8 GroupRec.powerOn
  due := []
  csu := Csu.powerOn .master
  cvb := Cvb.reset
  cbi := Cbi.powerOn false 0
  evb := ⟨Table.replicate 16 none, Table.replicate 16 false⟩
  freeCount := 0

end Sys2Proof.Machine
end

