-- ==== Sys2Proof/Machine/Flags.lean ====
section
/-! DEFINITION. The event block: reporting an event, the flags that are set, the wish for attention (R188 to R190). -/

namespace Sys2Proof.Machine

/-- The flag a report sets (R188, the table's numbers). -/
def Detail.flag : Detail → Fin 16
  | .frameTick _ => 0
  | .cutDone _ _ _ => 1
  | .commitAbandoned _ _ => 2
  | .inDoubt _ _ => 3
  | .desync _ _ _ _ _ => 4
  | .surfaceReady _ => 5
  | .tileChange _ _ _ _ _ => 6
  | .tileHot _ _ => 7
  | .underrun _ _ _ => 8
  | .overcover _ _ _ => 9
  | .syncLost _ => 10
  | .syncRegained _ => 11
  | .cue _ _ => 12
  | .blackout _ => 13
  | .pendingDiscarded _ _ => 14
  | .linkOverrun _ _ => 15

/-- The mask a report contributes: its cue or its tile, for the four flags that gather one (R188). -/
def Detail.maskBit : Detail → BitVec 16
  | .cue c _ => BitVec.ofNat 16 (2 ^ c.val)
  | .tileChange t _ _ _ _ => BitVec.ofNat 16 (2 ^ t.val)
  | .tileHot t _ => BitVec.ofNat 16 (2 ^ t.val)
  | .underrun t _ _ => BitVec.ofNat 16 (2 ^ t.val)
  | _ => 0

/-- The flags that gather a mask: TILE_CHANGE, TILE_HOT, UNDERRUN and CUE (R188). -/
def gathersMask (flag : Fin 16) : Bool := flag = 6 || flag = 7 || flag = 8 || flag = 12

/-- A flag after a report: set with repeat count 1, or with its detail replaced, its count advanced to at most 255 and its mask
gathered (R188). -/
def FlagRec.after (d : Detail) : Option FlagRec → FlagRec
  | none => ⟨d, 1, d.maskBit⟩
  | some r => ⟨d, min 255 (r.repeats + 1), r.mask ||| d.maskBit⟩

/-- The event block takes a report. -/
def Evb.record (d : Detail) (e : Evb) : Evb :=
  { e with flags := e.flags.set d.flag (some (FlagRec.after d (e.flags.get d.flag))) }

/-- A block reports an event; reports are taken in every phase after STARTING (R188). -/
def State.report (d : Detail) (s : State) : State :=
  { s with evb := if s.phase = .starting then s.evb else s.evb.record d }

/-- Reports taken one after another; the detail kept is that of the last (R188). -/
def State.reportAll (ds : List Detail) (s : State) : State :=
  { s with evb := if s.phase = .starting then s.evb else ds.foldl (fun e d => e.record d) s.evb }

/-- What makes reports to one flag that fall together, in the order in which the reports reach the event block: either order may
come (R188), so a free value gives it (entry 14). `number` is the tile or the placement that reports. -/
def inReportOrder {α : Type} (now : Nat) (number : α → Nat) (l : List α) : List α :=
  l.insertionSort fun a b => Config.reportRank now (number a) ≤ Config.reportRank now (number b)

/-- The set of flags that are set. -/
def Evb.flagsSet (e : Evb) : Table Bool 16 := Table.ofFn fun i => (e.flags.get i).isSome

/-- At least one flag is both set and enabled; while it is so the part pulls ATTN low (R190). -/
def State.wantsAttention (s : State) : Bool :=
  (List.finRange 16).any fun i => (s.evb.flags.get i).isSome && s.evb.enables.get i

/-- The event block with every flag clear, the enables as they are (R188: RST_KEEP and SOFT_RESET; R189: EVENTS). -/
def Evb.cleared (e : Evb) : Evb := { e with flags := Table.replicate 16 none }

end Sys2Proof.Machine
end

