-- ==== Sys2Proof/Machine/Ops.lean ====
section
/-! DEFINITION. The named operations over the part's memory, clock, records and counts that the meanings share. -/

namespace Sys2Proof.Machine

/-! ### The frame store: a list of cells with rising addresses (entry 4) -/

/-- The canonical form of the frame store's contents: addresses strictly rising. An unlisted byte has no value, so no cell can
equal what an unlisted address reads as. -/
abbrev Memory.wf (m : List Host.Cell) : Prop := m.Pairwise fun a b => a.1 < b.1

/-- The byte at an address; none where no upload has written it since the contents last became undefined. -/
def Memory.read : List Host.Cell → Nat → Option Byte
  | [], _ => none
  | c :: m, a => if c.1 = a then some c.2 else Memory.read m a

/-- One byte written. -/
def Memory.write : List Host.Cell → Nat → Byte → List Host.Cell
  | [], a, b => [(a, b)]
  | c :: m, a, b =>
    if a < c.1 then (a, b) :: c :: m
    else if a = c.1 then (a, b) :: m
    else c :: Memory.write m a b

/-- Consecutive bytes written from `a` on, in order (R143). -/
def Memory.writeBytes : List Host.Cell → Nat → List Byte → List Host.Cell
  | m, _, [] => m
  | m, a, b :: bs => Memory.writeBytes (Memory.write m a b) (a + 1) bs

/-- The bytes `a` to `a + n − 1` lose their value: a load burst cut short may have written any part of them (R148). -/
def Memory.forget (m : List Host.Cell) (a n : Nat) : List Host.Cell :=
  m.filter fun c => c.1 < a || a + n ≤ c.1

/-- What a read of the frame store returns; a free value where the byte is undefined (R36, entry 4). -/
def State.storeByte (s : State) (a : Nat) : Byte :=
  (Memory.read s.store a).getD (Config.undefinedByte s.storeEpoch a)

/-- Pages of the strapped store (R20). -/
def storePages : StoreSize → Nat
  | .mib128 => 32768
  | .mib256 => 65536
  | .mib512 => 131072

/-- Bytes in a page (R20). -/
def pageBytes : Nat := 4096

/-! ### Time (entry 3) -/

/-- Frames in a second. -/
def Rate.hertz : Rate → Nat
  | .hz24 => 24
  | .hz25 => 25
  | .hz30 => 30
  | .hz50 => 50
  | .hz60 => 60

/-- The rate SET_TIMING's number names (R184). -/
def Rate.ofHertz (n : Nat) : Option Rate :=
  match n with
  | 24 => some .hz24
  | 25 => some .hz25
  | 30 => some .hz30
  | 50 => some .hz50
  | 60 => some .hz60
  | _ => none

/-- A frame period in ticks: the reciprocal of the rate (R91). -/
def Rate.period (r : Rate) : Nat := Config.ticksPerSecond / r.hertz

/-- The clock brought to `t`, the time of an expiry, where it stands before it. -/
def State.atLeast (t : Nat) (s : State) : State := { s with now := max s.now t }

/-! ### Frame numbers (00, section 5) -/

/-- `x` lies ahead of `n`: (x − n) modulo 2^32 lies in 1 to 2^31 − 1. -/
def frameAhead (x n : Frame) : Bool := 1 ≤ (x - n).toNat && (x - n).toNat < 2147483648

/-- The later of two frame numbers (R54). -/
def laterFrame (x y : Frame) : Frame := if frameAhead x y then x else y

/-- (f − since) modulo 2^32: an age, or the frames since a fade started. -/
def framesSince (f since : Frame) : Nat := (f - since).toNat

/-! ### Surfaces -/

/-- Bytes per pixel (R18). -/
def Format.bytes : Format → Nat
  | .full => 4
  | .half => 2

/-- Rows per cell (R18). -/
def Desc.cellHeight (d : Desc) : Nat := d.height / d.cells

/-- width × bytes per pixel × height (R18). -/
def Desc.totalBytes (d : Desc) : Nat := d.width * d.format.bytes * d.height

/-- total_bytes / 4,096 rounded up (R18). -/
def Desc.pageCount (d : Desc) : Nat := (d.totalBytes + (pageBytes - 1)) / pageBytes

/-- The description of a LOADING or READY record. -/
def SurfaceState.desc : SurfaceState → Option Desc
  | .empty => none
  | .loading d _ => some d
  | .ready d => some d

/-- The name of a load state. -/
def SurfaceState.name : SurfaceState → LoadName
  | .empty => .empty
  | .loading _ _ => .loading
  | .ready _ => .ready

/-- Whether a record is READY. -/
def SurfaceState.isReady : SurfaceState → Bool
  | .ready _ => true
  | _ => false

/-- The load state of a surface. -/
def State.surface (s : State) (i : SurfaceId) : SurfaceState := (s.sdir.get i).state

/-- Two page ranges share a page (R25). -/
def sharePages (a b : Desc) : Bool :=
  a.basePage < b.basePage + b.pageCount && b.basePage < a.basePage + a.pageCount

/-- A surface record's load state replaced. -/
def State.setSurface (i : SurfaceId) (st : SurfaceState) (s : State) : State :=
  { s with sdir := s.sdir.modify i fun r => { r with state := st } }

/-- A name notice: the count rises by 1 (R31). -/
def State.nameSurface (i : SurfaceId) (s : State) : State :=
  { s with sdir := s.sdir.modify i fun r => { r with refs := r.refs + 1 } }

/-- An unname notice: the count falls by 1 (R31). -/
def State.unnameSurface (i : SurfaceId) (s : State) : State :=
  { s with sdir := s.sdir.modify i fun r => { r with refs := r.refs - 1 } }

/-! ### Placement records -/

/-- The name of a placement's state. -/
def Placement.name : Placement → PlacementName
  | .free => .free
  | .staged _ _ => .staged
  | .live _ _ _ _ _ => .live
  | .fading _ _ _ _ _ => .fading

/-- The group of a record that is not FREE (R38). -/
def Placement.group : Placement → Option GroupId
  | .free => none
  | .staged g _ => some g
  | .live g _ _ _ _ => some g
  | .fading g _ _ _ _ => some g

/-- The live values (the staged values of a STAGED record; R38). -/
def Placement.values : Placement → Option Values
  | .free => none
  | .staged _ v => some v
  | .live _ v _ _ _ => some v
  | .fading _ v _ _ _ => some v

/-- The values of a record that is LIVE or FADING. -/
def Placement.shown : Placement → Option Values
  | .free => none
  | .staged _ _ => none
  | .live _ v _ _ _ => some v
  | .fading _ v _ _ _ => some v

/-- The surface of a pending REPLACE. -/
def Pending.surfaces : Option Pending → List SurfaceId
  | some (.replace v _) => [v.surface]
  | _ => []

/-- The kind of a pending amendment. -/
def Pending.kind : Pending → PendingKind
  | .replace _ _ => .replace
  | .retire => .retire

/-- The surfaces named by a record's two slots (R32). -/
def Placement.slots : Placement → List SurfaceId
  | .free => []
  | .staged _ v => [v.surface]
  | .live _ v _ _ p => v.surface :: Pending.surfaces p
  | .fading _ v _ _ _ => [v.surface]

/-- A placement record replaced; the notices of R51 are sent beside it. -/
def State.setPlacement (i : PlacementId) (r : Placement) (s : State) : State :=
  { s with ptab := s.ptab.set i r }

/-- The unname notices that a change of many records sends, in id order. -/
def State.noticesOf (f : PlacementId → Placement → Placement × List SurfaceId) (s : State) : List SurfaceId :=
  (List.finRange 128).flatMap fun i => (f i (s.ptab.get i)).2

/-- Many records changed as one step, each change with its unname notices (R52): a cut, or the evaluation at a boundary. -/
def State.changeRecords (f : PlacementId → Placement → Placement × List SurfaceId) (s : State) : State :=
  { s with
    ptab := s.ptab.mapIdx fun i r => (f i r).1
    sdir := s.sdir.mapIdx fun i r => { r with refs := r.refs - (s.noticesOf f).count i } }

/-- The records that such a change makes FREE: the removals of R59. -/
def State.removalsOf (f : PlacementId → Placement → Placement × List SurfaceId) (s : State) : List PlacementId :=
  (List.finRange 128).filter fun i => s.ptab.get i ≠ .free && (f i (s.ptab.get i)).1 = .free

/-! ### Groups -/

/-- The name of a group's state. -/
def GroupState.name : GroupState → GroupName
  | .idle => .idle
  | .armed => .armed
  | .due => .due
  | .nominated _ => .nominated
  | .inDoubt _ => .inDoubt

/-- NOMINATED. -/
def GroupState.isNominated : GroupState → Bool
  | .nominated _ => true
  | _ => false

/-- IN_DOUBT. -/
def GroupState.isInDoubt : GroupState → Bool
  | .inDoubt _ => true
  | _ => false

/-- NOMINATED or IN_DOUBT: the records of the group are locked (R44). -/
def GroupState.holdsRecords (g : GroupState) : Bool := g.isNominated || g.isInDoubt

/-- nominate_frame, absent in the states that hold none (R64). -/
def GroupState.nominateFrame : GroupState → Option Frame
  | .nominated f => some f
  | .inDoubt f => some f
  | _ => none

/-- The state of a group in this part. -/
def State.groupState (s : State) (g : GroupId) : GroupState := (s.groups.get g).state

/-- A group's state replaced. -/
def State.setGroupState (g : GroupId) (st : GroupState) (s : State) : State :=
  { s with groups := s.groups.modify g fun r => { r with state := st } }

/-- The group NOMINATED in this part; R77 gives that there is at most one. -/
def State.nominatedGroup (s : State) : Option GroupId :=
  (List.finRange 8).find? fun g => (s.groupState g).isNominated

/-- The group IN_DOUBT in this part. -/
def State.inDoubtGroup (s : State) : Option GroupId :=
  (List.finRange 8).find? fun g => (s.groupState g).isInDoubt

/-- The group NOMINATED or IN_DOUBT in this part. -/
def State.heldGroup (s : State) : Option GroupId :=
  (List.finRange 8).find? fun g => (s.groupState g).holdsRecords

/-- A group becomes DUE and joins the queue at its tail (R73). -/
def State.makeDue (g : GroupId) (s : State) : State :=
  { s.setGroupState g .due with due := s.due ++ [g] }

/-- Groups made DUE in the order given (R71, R72: ascending id). -/
def State.makeAllDue (gs : List GroupId) (s : State) : State := gs.foldl (fun s g => s.makeDue g) s

/-- The surfaces that a group's STAGED records and pending REPLACE amendments name (R100). -/
def State.neededSurfaces (s : State) (g : GroupId) : List SurfaceId :=
  s.ptab.rows.flatMap fun r =>
    match r with
    | .staged h v => if h = g then [v.surface] else []
    | .live h _ _ _ p => if h = g then Pending.surfaces p else []
    | _ => []

/-! ### The RDY drive (R100, R101) -/

/-- On a slave, the last word it took arrived no more than two periods of its own timing ago; a master needs no word. -/
def State.wordFresh (s : State) : Bool :=
  match s.clc.straps.role with
  | .master => true
  | .slave =>
    match s.csu.lossTimer with
    | some t => s.now - t ≤ 2 * s.rateNow.period
    | none => false

/-- The release conditions of R100. -/
def State.rdyConditions (s : State) : Bool :=
  s.phase = .running && s.csu.sync = .locked && s.wordFresh
    && (match s.nominatedGroup with
        | none => false
        | some g => s.cvb.prep = .complete g && (s.neededSurfaces g).all fun i => (s.surface i).isReady)
    && s.csu.desyncHold = none

/-- The re-test of R101: the drive follows the conditions, and a release marks readiness_given. -/
def State.retestRdy (s : State) : State :=
  { s with csu := { s.csu with
      rdyReleased := s.rdyConditions
      readinessGiven := s.csu.readinessGiven || s.rdyConditions } }

/-- Where no group remains NOMINATED or IN_DOUBT, readiness_given and desync_hold are cleared (R98, R100, R107). -/
def State.settleHold (s : State) : State :=
  { s with csu :=
      if s.heldGroup = none then { s.csu with readinessGiven := false, desyncHold := none } else s.csu }

end Sys2Proof.Machine
end

