-- ==== Sys2Proof/Machine/Operands.lean ====
section
/-! DEFINITION. The fields of the host commands: the codes that name a value from a list (10, section 10.6) and the checks that
several commands share (R23, R45). -/

namespace Sys2Proof.Machine

/-- A field in a closed range. -/
def within (lo hi n : Nat) : Bool := lo ≤ n && n ≤ hi

/-- A numbered record, where the number is in range. -/
def recordId (n count : Nat) : Option (Fin count) := if h : n < count then some ⟨n, h⟩ else none

/-- format: 0 FULL, 1 HALF. -/
def Format.ofCode (n : Nat) : Option Format :=
  match n with
  | 0 => some .full
  | 1 => some .half
  | _ => none

/-- cell_mode: 0 LOOP, 1 ONCE_HOLD, 2 ONCE_RETIRE. -/
def CellMode.ofCode (n : Nat) : Option CellMode :=
  match n with
  | 0 => some .loop
  | 1 => some .onceHold
  | 2 => some .onceRetire
  | _ => none

/-- edge: 0 RISING, 1 FALLING, 2 ANY, 3 LEVEL. -/
def Edge.ofCode (n : Nat) : Option Edge :=
  match n with
  | 0 => some .rising
  | 1 => some .falling
  | 2 => some .any
  | 3 => some .level
  | _ => none

/-- mode: 0 PICTURE, 1 FLAT, 2 BLACK, 3 HOLD, 4 IDLE. -/
def Mode.ofCode (n : Nat) : Option Mode :=
  match n with
  | 0 => some .picture
  | 1 => some .flat
  | 2 => some .black
  | 3 => some .hold
  | 4 => some .idle
  | _ => none

/-- blackout mode: 0 OFF, 1 LEVEL, 2 LATCH. -/
def BlackoutMode.ofCode (n : Nat) : Option BlackoutMode :=
  match n with
  | 0 => some .off
  | 1 => some .level
  | 2 => some .latch
  | _ => none

/-- restart flag, switch, inversion mark, enable mark: 1 YES or on, 0 NO or off. -/
def markOf (n : Nat) : Option Bool :=
  match n with
  | 0 => some false
  | 1 => some true
  | _ => none

/-- A table of marks, where every one of them is 0 or 1. -/
def marksOf {n : Nat} (t : Table Nat n) : Option (Table Bool n) :=
  if t.rows.all fun m => (markOf m).isSome then some (Table.mapIdx (fun _ m => m = 1) t) else none

/-- The trigger of SET_GROUP: 0 IMMEDIATE, 1 CUE with its cue and edge, 2 FRAME with its target; the bytes of the other kinds are
ignored (R66; 10, section 10.6). -/
def Trigger.ofFields (kind cue edge target : Nat) : Option Trigger :=
  match kind with
  | 0 => some .immediate
  | 1 =>
    match recordId cue 4, Edge.ofCode edge with
    | some c, some e => some (.cue c e)
    | _, _ => none
  | 2 => some (.frame (BitVec.ofNat 32 target))
  | _ => none

/-- A key's number for a format, where it lies in the range of R21 (10, section 10.6: FULL is red + 256 × green +
65,536 × blue). -/
def Key.ofNumber (f : Format) (n : Nat) : Option Key :=
  match f with
  | .half => if n ≤ 65535 then some (.half n) else none
  | .full => if n ≤ 16777215 then some (.full (n % 256) (n / 256 % 256) (n / 65536)) else none

/-- Test 3 of R23: the description the fields give; none where one of them is out of place. -/
def Desc.ofFields (format width height cells basePage : Nat) (key : Option Nat) : Option Desc :=
  match Format.ofCode format with
  | none => none
  | some f =>
    if within 1 4096 width && within 1 4096 height && within 1 64 cells && height % cells = 0 then
      match key with
      | none => some ⟨f, width, height, cells, basePage, none⟩
      | some n =>
        match Key.ofNumber f n with
        | none => none
        | some k => some ⟨f, width, height, cells, basePage, some k⟩
    else none

/-- Test 1 of R45: every field in its range (R39). -/
def valuesInRange (v : RawValues) : Bool :=
  within 0 15 v.layer && within 0 16383 v.dx && within 0 16383 v.dy
    && within 1 16384 v.dw && within 1 16384 v.dh && v.dx + v.dw ≤ 16384 && v.dy + v.dh ≤ 16384
    && within 0 255 v.surface && within 0 4095 v.sx && within 0 4095 v.sy
    && within 1 4096 v.sw && within 1 4096 v.sh
    && within 0 255 v.fadeIn && within 0 255 v.fadeOut && within 0 65535 v.runLength
    && within 0 255 v.cellRate && within 0 63 v.firstCell

/-- step = floor(source size × 65,536 / destination size) (R40). -/
def scaleStep (source destination : Nat) : Nat := source * 65536 / destination

/-- cell_rate as taken: 0 is taken as 1 (R39). -/
def rateTaken (n : Nat) : Nat := if n = 0 then 1 else n

/-- end_age: the smaller of run_length where above 0 and, for ONCE_RETIRE, (cells − first_cell) × cell_rate (R40). -/
def endAgeOf (runLength : Nat) (mode : CellMode) (cells firstCell cellRate : Nat) : Option Nat :=
  let flipbook := (cells - firstCell) * cellRate
  match mode with
  | .onceRetire => some (if runLength = 0 then flipbook else min runLength flipbook)
  | .loop => if runLength = 0 then none else some runLength
  | .onceHold => if runLength = 0 then none else some runLength

/-- The values as taken, with the quantities derived from them and the surface's cells (R39, R40). -/
def Values.taken (v : RawValues) (surface : SurfaceId) (mode : CellMode) (cells : Nat) : Values where
  layer := v.layer
  dx := v.dx
  dy := v.dy
  dw := v.dw
  dh := v.dh
  surface := surface
  sx := v.sx
  sy := v.sy
  sw := v.sw
  sh := v.sh
  stepX := scaleStep v.sw v.dw
  stepY := scaleStep v.sh v.dh
  alpha := min 256 v.alpha
  fadeIn := v.fadeIn
  fadeOut := v.fadeOut
  runLength := v.runLength
  cellRate := rateTaken v.cellRate
  firstCell := v.firstCell
  cellMode := mode
  endAge := endAgeOf v.runLength mode cells v.firstCell (rateTaken v.cellRate)

/-- The five tests of R45, in order: the values as taken, or the status of the first failing test. -/
def State.checkValues (s : State) (v : RawValues) : Except Status Values :=
  match valuesInRange v, recordId v.surface 256, CellMode.ofCode v.cellMode with
  | true, some i, some mode =>
    match (s.surface i).desc with
    | none => .error .noSuch
    | some d =>
      if v.sx + v.sw > d.width || v.sy + v.sh > d.cellHeight then .error .badValue
      else if v.firstCell ≥ d.cells then .error .badValue
      else if within 4096 1048576 (scaleStep v.sw v.dw) && within 4096 1048576 (scaleStep v.sh v.dh) then
        .ok (Values.taken v i mode d.cells)
      else .error .scaleRange
  | _, _, _ => .error .badValue

/-- The tiles a selector names: one tile, or every tile for 16 (R152, R163). -/
def selectedTiles (selector : Nat) : Option (List TileId) :=
  if selector = 16 then some (List.finRange 16)
  else
    match recordId selector 16 with
    | some t => some [t]
    | none => none

/-- A warm_up as stored: the nearer bound outside 50 to 1,000 ms, else rounded down to a multiple of 10 (R150). -/
def warmUpStored (n : Nat) : Nat := if n < 50 then 50 else if n > 1000 then 1000 else n / 10 * 10

/-- A level as stored: above 256 it is stored as 256 (R150). -/
def levelStored (n : Nat) : Nat := min 256 n

/-- Every channel of a carried colour lies in 0 to 255 (R126, R163). -/
def channelsInRange (c : Rgb) : Bool := within 0 255 c.red && within 0 255 c.green && within 0 255 c.blue

end Sys2Proof.Machine
end

