-- ==== Sys2Proof/Machine/Ports.lean ====
section
/-! DEFINITION. The tile ports: power, warm-up, training, loss, drain, back-channel, and what each boundary decides (08). -/

namespace Sys2Proof.Machine

/-- The name of a port's state. -/
def PortState.name : PortState → PortName
  | .off => .off
  | .powering _ => .powering
  | .training _ _ => .training
  | .up => .up
  | .lost => .lost
  | .draining _ _ => .draining
  | .fault => .fault

/-- The panel power rail enable (R151). -/
def PortState.rail : PortState → Bool
  | .off => false
  | .powering _ => true
  | .training _ _ => true
  | .up => true
  | .lost => true
  | .draining _ _ => true
  | .fault => false

/-- restart_after_drain: held in DRAINING, no in every other state (R151). -/
def PortState.restartAfterDrain : PortState → Bool
  | .off => false
  | .powering _ => false
  | .training _ _ => false
  | .up => false
  | .lost => false
  | .draining _ restart => restart
  | .fault => false

/-- The attempt, in TRAINING. -/
def PortState.attempt : PortState → Option Nat
  | .training a _ => some a
  | _ => none

/-- A port in another state, its other fields as they are. -/
def Port.enter (st : PortState) (p : Port) : Port := { p with state := st }

/-- A port in OFF or FAULT, its temperature OK (R156, R157). -/
def Port.switchedOff (st : PortState) (p : Port) : Port := { p with state := st, temperature := .ok }

/-- A change of port_state as TILE_CHANGE reports it (R151). -/
def changeOf (t : TileId) (f : Frame) (old new : PortState) : List Detail :=
  if old.name = new.name then [] else [.tileChange t old.name new.name new.attempt f]

/-- A warm-up of `milliseconds` begun at `now` (R153). -/
def warmUpFrom (now milliseconds : Nat) : PortState := .powering (now + milliseconds * Config.ticksPerMilli)

/-- The end of a drain: OFF, then POWERING where a restart is pending (R156). The states passed through are those reported. -/
def drainEnd (now milliseconds : Nat) (restart : Bool) (p : Port) : Port × List PortState :=
  let off := p.switchedOff .off
  if restart then (off.enter (warmUpFrom now milliseconds), [.off, warmUpFrom now milliseconds]) else (off, [.off])

/-- A training attempt fails: the next one begins, or the port enters FAULT after the third (R154, R157). -/
def attemptFail (attempt : Nat) (p : Port) : Port × List PortState :=
  if attempt < 3 then (p.enter (.training (attempt + 1) 0), []) else (p.switchedOff .fault, [.fault])

/-- A port at a frame boundary: the new record, and the states entered in order (R154, R155, R156). -/
def Port.atBoundary (now milliseconds : Nat) (p : Port) : Port × List PortState :=
  let q := { p with lockSeen := false }
  match p.state with
  | .off => (q, [])
  | .powering _ => (q, [])
  | .fault => (q, [])
  | .training a n => if n + 1 < 6 then (q.enter (.training a (n + 1)), []) else attemptFail a q
  | .up =>
    if p.lockSeen then ({ q with missed := 0 }, [])
    else if p.missed + 1 < 3 then ({ q with missed := p.missed + 1 }, [])
    else ({ q with missed := 3, state := .lost }, [.lost])
  | .lost => (q.enter (.training 1 0), [.training 1 0])
  | .draining .beforeBlack restart => (q.enter (.draining .blackSent restart), [])
  | .draining .blackSent restart => drainEnd now milliseconds restart q

/-- The reports of the states a port enters, one after another (R151). -/
def changesThrough (t : TileId) (f : Frame) : PortState → List PortState → List Detail
  | _, [] => []
  | old, new :: rest => changeOf t f old new ++ changesThrough t f new rest

/-- What port `t` becomes at a boundary. -/
def State.portStep (s : State) (t : TileId) : Port × List PortState :=
  (s.ports.get t).atBoundary s.now (s.tiles.get t).warmUp

/-- The reports of port `t` at a boundary. -/
def State.portReports (s : State) (t : TileId) : List Detail :=
  changesThrough t s.csu.frame (s.ports.get t).state (s.portStep t).2

/-- The reports of the tiles that have any, tile after tile (R188, entry 14). -/
def State.tileReports (reports : TileId → List Detail) (s : State) : List Detail :=
  (inReportOrder s.now Fin.val ((List.finRange 16).filter fun t => !(reports t).isEmpty)).flatMap reports

/-- Every port takes a boundary. -/
def State.stepPorts (s : State) : State :=
  { s with ports := Table.ofFn fun t => (s.portStep t).1 }.reportAll (s.tileReports s.portReports)

/-- One port changes, with its reports. -/
def State.changePort (t : TileId) (r : Port × List PortState) (s : State) : State :=
  { s with ports := s.ports.set t r.1 }.reportAll (changesThrough t s.csu.frame (s.ports.get t).state r.2)

/-- WARM_UP_EXPIRY (R153): a POWERING port enters TRAINING with attempt 1; nothing in any other state (entry 6). -/
def execWarmUpExpiry (t : TileId) (s : State) : Host.Outcome State Fault Refusal :=
  match (s.ports.get t).state with
  | .powering endsAt =>
    .next ((s.atLeast endsAt).changePort t ((s.ports.get t).enter (.training 1 0), [.training 1 0]))
  | _ => .next s

/-- A port in this state takes statuses (R158). -/
def PortState.takesStatus : PortState → Bool
  | .off => false
  | .powering _ => false
  | .training _ _ => true
  | .up => true
  | .lost => true
  | .draining _ _ => true
  | .fault => false

/-- A port after a status it takes: its temperature, and the lock report in TRAINING and UP (R154, R155, R158). A lock that ends the
training counts for the frame it falls in (entry 34). -/
def Port.afterStatus (locked : Bool) (temperature : Temperature) (p : Port) : Port × List PortState :=
  let q := { p with temperature := temperature }
  match p.state with
  | .training _ _ => if locked then ({ q with state := .up, missed := 0, lockSeen := true }, [.up]) else (q, [])
  | .up => ({ q with lockSeen := p.lockSeen || locked }, [])
  | _ => (q, [])

/-- The report of a status whose class passes to HOT (R158). -/
def hotReport (t : TileId) (f : Frame) (old new : Temperature) : List Detail :=
  if old ≠ .hot ∧ new = .hot then [.tileHot t f] else []

/-- BACK_CHANNEL_STATUS (R158). -/
def execBackChannelStatus (t : TileId) (locked : Bool) (temperature : Temperature) (s : State) :
    Host.Outcome State Fault Refusal :=
  let p := s.ports.get t
  if p.state.takesStatus then
    .next ((s.changePort t (p.afterStatus locked temperature)).reportAll
      (hotReport t s.csu.frame p.temperature temperature))
  else .next s

/-! ### What is decided at a boundary -/

/-- The frame level (R134, R159). -/
def effectiveLevel (level : Nat) : Temperature → Nat
  | .ok => level
  | .warm => level
  | .hot => min level 128

/-- The kind a mode names. -/
def Mode.kind : Mode → FrameKind
  | .picture => .picture
  | .flat => .flat
  | .black => .black
  | .hold => .hold
  | .idle => .idle

/-- The steps of R160 for a port that is UP. -/
def upKind (mode : Mode) (blackout running locked hasRect : Bool) : FrameKind :=
  if mode = .idle then .idle
  else if blackout then .black
  else if running = false then .black
  else if locked = false ∧ mode = .picture then .hold
  else if mode = .picture ∧ hasRect = false then .black
  else mode.kind

/-- The frame kind of port `t` for the frame in progress: BLACK where the drain is BEFORE_BLACK as the boundary finds it, else by
R160 (R156, R160). `old` holds the ports before the boundary's own step. -/
def State.decideKind (old : Table Port 16) (s : State) (t : TileId) : FrameKind :=
  match (old.get t).state with
  | .draining .beforeBlack _ => .black
  | _ =>
    if (s.ports.get t).state = .up then
      upKind (s.tiles.get t).mode s.csu.blackoutFlag (s.phase = .running) (s.csu.sync = .locked)
        (s.held.rects.get t).isSome
    else .none

/-- What port `t` puts on its picture link: the training pattern in TRAINING, the frame in progress in UP and DRAINING, nothing in
any other state or where the frame kind is NONE (R151, R154, R156, R161). -/
def State.linkDrive (s : State) (t : TileId) : LinkDrive :=
  match (s.ports.get t).state with
  | .training _ _ => .pattern
  | .up => if (s.frames.get t).kind = .none then .nothing else .frame (s.frames.get t).kind
  | .draining _ _ => if (s.frames.get t).kind = .none then .nothing else .frame (s.frames.get t).kind
  | .off => .nothing
  | .powering _ => .nothing
  | .lost => .nothing
  | .fault => .nothing

end Sys2Proof.Machine
end

