-- ==== Sys2Proof/Machine/Coverage.lean ====
section
/-! DEFINITION. The coverage builder: the two sets, the build of a list, preparation, removals and the change of lists at START
and at a cut (06, sections 6.1 and 6.2). -/

namespace Sys2Proof.Machine

/-- Two rectangles intersect when they have at least one point in common (00, section 5). -/
def Rect.intersects (a b : Rect) : Bool :=
  a.x < b.x + b.w && b.x < a.x + a.w && a.y < b.y + b.h && b.y < a.y + a.h

/-- A rectangle contains a wall point. -/
def Rect.contains (a : Rect) (x y : Nat) : Bool :=
  a.x ≤ x && x < a.x + a.w && a.y ≤ y && y < a.y + a.h

/-- The destination rectangle of a set of values (R39). -/
def Values.destination (v : Values) : Rect := ⟨v.dx, v.dy, v.dw, v.dh⟩

/-- A placement of a set: its id and the values it has there. -/
abbrev Member := PlacementId × Values

/-- Composition order: ascending layer, then ascending id (R113). -/
def composedBefore (a b : Member) : Prop :=
  a.2.layer < b.2.layer ∨ (a.2.layer = b.2.layer ∧ a.1.val ≤ b.1.val)

/-- The same order as a test. -/
def composedBeforeB (a b : Member) : Bool :=
  a.2.layer < b.2.layer || (a.2.layer = b.2.layer && a.1.val ≤ b.1.val)

/-- A set in composition order. -/
def inCompositionOrder (set : List Member) : List Member :=
  set.insertionSort fun a b => composedBeforeB a b = true

/-- The live set: every LIVE and FADING record with its live values (R113), in id order. -/
def liveSet (ptab : Table Placement 128) : List Member :=
  ptab.entries.filterMap fun e => e.2.shown.map fun v => (e.1, v)

/-- A record's values in the post-cut view of `g`, if it is in the view (R60). -/
def postCutValues (g : GroupId) : Placement → Option Values
  | .free => none
  | .staged h v => if h = g then some v else none
  | .live h v _ _ p =>
    if h = g then
      match p with
      | none => some v
      | some (.replace nv _) => some nv
      | some .retire => if v.fadeOut = 0 then none else some v
    else some v
  | .fading _ v _ _ _ => some v

/-- The post-cut view of `g` (R60), in id order. -/
def postCutView (ptab : Table Placement 128) (g : GroupId) : List Member :=
  ptab.entries.filterMap fun e => (postCutValues g e.2).map fun v => (e.1, v)

/-- The placements of a set that qualify for a tile, in composition order (R113). -/
def qualifying (rect : Option Rect) (set : List Member) : List Member :=
  match rect with
  | none => []
  | some r => inCompositionOrder (set.filter fun m => m.2.destination.intersects r)

/-- The most ids a coverage list holds (R112). -/
def coverageLimit : Nat := 12

/-- A tile's list and exclusion count built from a set: the 12 latest in composition order (R114). -/
def buildCoverage (rect : Option Rect) (set : List Member) : Coverage :=
  let q := qualifying rect set
  ⟨(q.drop (q.length - coverageLimit)).map Prod.fst, q.length - coverageLimit⟩

/-- The active lists of every tile built from the live set (R115, R84). -/
def buildActive (held : HeldGeometry) (ptab : Table Placement 128) : Table Coverage 16 :=
  held.rects.mapIdx fun _ r => buildCoverage r (liveSet ptab)

/-- The shadow lists built from the post-cut view of `g`, for the tiles whose held rectangle is present (R119). -/
def buildShadow (held : HeldGeometry) (ptab : Table Placement 128) (g : GroupId) : Table (Option Coverage) 16 :=
  held.rects.mapIdx fun _ r => r.map fun q => buildCoverage (some q) (postCutView ptab g)

/-- Some tile's held visible rectangle is present. -/
def HeldGeometry.anyRect (h : HeldGeometry) : Bool := h.rects.rows.any fun r => r.isSome

/-- A preparation of `g` begins, or begins again: the shadow lists become absent; with no rectangle present it is complete at
once (R119, R120). -/
def Cvb.begin (held : HeldGeometry) (g : GroupId) (c : Cvb) : Cvb :=
  { c with shadow := Table.replicate 16 none, prep := if held.anyRect then .inFlight g else .complete g }

/-- The preparation held is begun again; where none is held nothing changes (R121). -/
def Cvb.restart (held : HeldGeometry) (c : Cvb) : Cvb :=
  match c.prep with
  | .none => c
  | .inFlight g => c.begin held g
  | .complete g => c.begin held g

/-- The group of the preparation held. -/
def Prep.group : Prep → Option GroupId
  | .none => Option.none
  | .inFlight g => some g
  | .complete g => some g

/-- The preparation is dropped: stopped or discarded, the shadow lists absent (R122). -/
def Cvb.drop (c : Cvb) : Cvb := { c with shadow := Table.replicate 16 none, prep := .none }

/-- The preparation of `g` is dropped where it is the one held (R85). -/
def Cvb.dropFor (g : GroupId) (c : Cvb) : Cvb := if c.prep.group = some g then c.drop else c

/-- A list with the removed ids deleted; the other entries keep their order and the count is not changed (R117). -/
def Coverage.without (removed : List PlacementId) (c : Coverage) : Coverage :=
  { c with ids := c.ids.filter fun i => !removed.contains i }

/-- Removed ids are deleted from every active and shadow list (R117). -/
def Cvb.without (removed : List PlacementId) (c : Cvb) : Cvb :=
  { c with
    active := c.active.mapIdx fun _ l => l.without removed
    shadow := c.shadow.mapIdx fun _ l => l.map fun k => k.without removed }

/-- Removals at a boundary: the ids are deleted, and a preparation in flight is begun again (R117). -/
def Cvb.remove (held : HeldGeometry) (removed : List PlacementId) (c : Cvb) : Cvb :=
  if removed = [] then c
  else
    match c.prep with
    | .inFlight g => (c.without removed).begin held g
    | _ => c.without removed

/-- The lists at a cut of `g`: a complete preparation of `g` is swapped in; otherwise the active lists are built from the records
as the cut leaves them, and a preparation held for another group is begun again (R84, R122). -/
def Cvb.cut (held : HeldGeometry) (ptab : Table Placement 128) (g : GroupId) (c : Cvb) : Cvb :=
  match c.prep with
  | .complete h =>
    if h = g then
      { active := c.shadow.mapIdx fun _ l => l.getD ⟨[], 0⟩, shadow := Table.replicate 16 none, prep := .none }
    else { c with active := buildActive held ptab }.begin held h
  | .inFlight h =>
    if h = g then { c with active := buildActive held ptab }.drop
    else { c with active := buildActive held ptab }.begin held h
  | .none => { c with active := buildActive held ptab }

/-- The tiles whose active exclusion count is above 0. -/
def Cvb.crowded (c : Cvb) : List TileId := (List.finRange 16).filter fun t => 0 < (c.active.get t).excluded

/-- The report made when lists become active: OVERCOVER where any tile's new count is above 0 (R116). -/
def Cvb.overcover (c : Cvb) : List Detail :=
  match c.crowded with
  | [] => []
  | t :: ts => [.overcover (ts.length + 1) t (c.active.get t).excluded]

/-- Lists become active, and the change is reported (R116). -/
def State.activate (c : Cvb) (s : State) : State := { s with cvb := c }.reportAll c.overcover

/-- The preparation completes: the shadow lists are those of the post-cut view (R120). -/
def State.completePreparation (s : State) : State :=
  match s.cvb.prep with
  | .inFlight g =>
    { s with cvb := { s.cvb with prep := .complete g, shadow := buildShadow s.held s.ptab g } }.retestRdy
  | _ => s

end Sys2Proof.Machine
end

