-- ==== Sys2Proof/Machine/Schedule.lean ====
section
/-! DEFINITION. What a cut and a frame boundary do to the placement records (R53 to R60, R79 to R82), and the two rows that take one
record's end by itself. -/

namespace Sys2Proof.Machine

/-- A record after the cut of `g` at frame `f`, with its unname notices (R80 to R82). -/
def Placement.cutAt (g : GroupId) (f : Frame) (r : Placement) : Placement × List SurfaceId :=
  match r with
  | .free => (r, [])
  | .fading _ _ _ _ _ => (r, [])
  | .staged h v => if h = g then (.live h v f f none, []) else (r, [])
  | .live h v since valuesSince p =>
    if h = g then
      match p with
      | none => (.live h v since valuesSince none, [])
      | some (.replace new true) => (.live h new f f none, [v.surface])
      | some (.replace new false) =>
        if (match new.endAge with | none => false | some e => decide (e ≤ framesSince f since)) then
          if new.fadeOut = 0 then (.free, [v.surface, new.surface]) else (.fading h new since f f, [v.surface])
        else (.live h new since f none, [v.surface])
      | some .retire =>
        if v.fadeOut = 0 then (.free, [v.surface]) else (.fading h v since valuesSince f, [])
    else (r, [])

/-- A LIVE record has reached its end at boundary `f` (R54). -/
def Placement.atEnd (f : Frame) : Placement → Bool
  | .live _ v since _ _ =>
    match v.endAge with
    | none => false
    | some e => e ≤ framesSince f since
  | _ => false

/-- A FADING record is complete at boundary `f` (R56). -/
def Placement.fadeOver (f : Frame) : Placement → Bool
  | .fading _ v _ _ start => v.fadeOut ≤ framesSince f start
  | _ => false

/-- The end frame of a set of values (R54). -/
def endFrame (v : Values) (since valuesSince : Frame) : Frame :=
  laterFrame (since + BitVec.ofNat 32 (v.endAge.getD 0)) valuesSince

/-- R54 and R55 on one record: a LIVE record at its end becomes FADING and loses its pending amendment. -/
def Placement.ended (f : Frame) (r : Placement) : Placement × List SurfaceId :=
  match r with
  | .live g v since valuesSince p =>
    if r.atEnd f then (.fading g v since valuesSince (endFrame v since valuesSince), Pending.surfaces p) else (r, [])
  | .free => (r, [])
  | .staged _ _ => (r, [])
  | .fading _ _ _ _ _ => (r, [])

/-- R56 on one record: a complete FADING record becomes FREE. -/
def Placement.completed (f : Frame) (r : Placement) : Placement × List SurfaceId :=
  match r with
  | .fading _ v _ _ _ => if r.fadeOver f then (.free, [v.surface]) else (r, [])
  | .free => (r, [])
  | .staged _ _ => (r, [])
  | .live _ _ _ _ _ => (r, [])

/-- A record after its evaluation at boundary `f` (R53): R54 and R55, then R56. -/
def Placement.evaluated (f : Frame) (r : Placement) : Placement × List SurfaceId :=
  (((r.ended f).1.completed f).1, (r.ended f).2 ++ ((r.ended f).1.completed f).2)

/-- The pending REPLACE that a record loses at boundary `f`: its group and its surface (R55). -/
def Placement.discardAt (f : Frame) (r : Placement) : Option (GroupId × SurfaceId) :=
  match r with
  | .live g _ _ _ (some (.replace v _)) => if r.atEnd f then some (g, v.surface) else none
  | _ => none

/-- Which records are evaluated: all of them at a boundary, one for RUN_EXPIRY and FADE_COMPLETE. -/
abbrev Selection := PlacementId → Bool

/-- The evaluation of the selected records, as a change of the table. -/
def evaluationOf (sel : Selection) (f : Frame) : PlacementId → Placement → Placement × List SurfaceId :=
  fun i r => if sel i then r.evaluated f else (r, [])

/-- The selected records that lose a pending REPLACE, in id order. -/
def State.discards (sel : Selection) (f : Frame) (s : State) : List (PlacementId × GroupId × SurfaceId) :=
  (List.finRange 128).filterMap fun i =>
    if sel i then ((s.ptab.get i).discardAt f).map fun d => (i, d.1, d.2) else none

/-- The coverage lists after the evaluation: removals deleted; the preparation begun again where a pending REPLACE of the NOMINATED
group was discarded (R59, R117, R118). -/
def State.coverageAfter (sel : Selection) (f : Frame) (s : State) : Cvb :=
  let lists := s.cvb.remove s.held (s.removalsOf (evaluationOf sel f))
  if (s.discards sel f).any fun d => s.nominatedGroup = some d.2.1 then lists.restart s.held else lists

/-- The placement table evaluates the selected records at frame `f` (R53 to R56, R59). -/
def State.evaluateWhere (sel : Selection) (f : Frame) (s : State) : State :=
  { s.changeRecords (evaluationOf sel f) with cvb := s.coverageAfter sel f }.reportAll
    ((inReportOrder s.now (fun (d : PlacementId × GroupId × SurfaceId) => d.1.val) (s.discards sel f)).map
      fun (d : PlacementId × GroupId × SurfaceId) => Detail.pendingDiscarded d.1 d.2.2)

/-- The evaluation of every record at the boundary of the frame in progress; suspended while the part is not LOCKED (R53, R57). -/
def State.evaluate (s : State) : State :=
  if s.csu.sync = .locked then s.evaluateWhere (fun _ => true) s.csu.frame else s

/-- RUN_EXPIRY (R54): the end of one LIVE record's run at the frame in progress, where it has reached it and evaluation is not
suspended, and nothing elsewhere (entry 6); the boundary does the same for every record (entry 13). -/
def execRunExpiry (id : PlacementId) (s : State) : Host.Outcome State Fault Refusal :=
  if s.csu.sync = .locked ∧ (s.ptab.get id).atEnd s.csu.frame then
    .next (s.evaluateWhere (fun i => i = id) s.csu.frame).retestRdy
  else .next s

/-- FADE_COMPLETE (R56): the completion of one FADING record at the frame in progress, where its fade has run out and evaluation is
not suspended (entry 13), and nothing elsewhere (entry 6). -/
def execFadeComplete (id : PlacementId) (s : State) : Host.Outcome State Fault Refusal :=
  if s.csu.sync = .locked ∧ (s.ptab.get id).fadeOver s.csu.frame then
    .next (s.evaluateWhere (fun i => i = id) s.csu.frame).retestRdy
  else .next s

/-- PREPARATION_COMPLETE (R120): nothing where no preparation is in flight (entry 6). -/
def execPreparationComplete (s : State) : Host.Outcome State Fault Refusal := .next s.completePreparation

end Sys2Proof.Machine
end

