-- ==== Sys2Proof/Machine/Compose.lean ====
section
/-! DEFINITION. The compositor's arithmetic: cells, fade weights, scaling, pixels, blending, and the line fetches a line needs
(06, section 6.4). Every division rounds down. -/

namespace Sys2Proof.Machine

/-- The fade-in weight at an age (R131). -/
def fadeInWeight (v : Values) (age : Nat) : Nat :=
  if age < v.fadeIn then 256 * (age + 1) / (v.fadeIn + 1) else 256

/-- The fade-out weight `j` frames after fade_start (R131). -/
def fadeOutWeight (v : Values) (j : Nat) : Nat :=
  if j < v.fadeOut then 256 * (v.fadeOut - j) / (v.fadeOut + 1) else 0

/-- The age of a LIVE or FADING record in frame `f` (R61). -/
def Placement.age (f : Frame) : Placement → Nat
  | .live _ _ since _ _ => framesSince f since
  | .fading _ _ since _ _ => framesSince f since
  | _ => 0

/-- The fade weight of a record in frame `f`: the smaller of the two (R131). -/
def Placement.fadeWeight (f : Frame) : Placement → Nat
  | .live _ v since _ _ => fadeInWeight v (framesSince f since)
  | .fading _ v since _ start => min (fadeInWeight v (framesSince f since)) (fadeOutWeight v (framesSince f start))
  | _ => 0

/-- The effective weight floor(alpha × fw / 256) (R131). -/
def effectiveWeight (v : Values) (fadeWeight : Nat) : Nat := v.alpha * fadeWeight / 256

/-- The cell shown at an age, of a surface with this many cells (R130). -/
def cellAt (v : Values) (cells age : Nat) : Nat :=
  let k := age / v.cellRate
  match v.cellMode with
  | .loop => (v.firstCell + k) % cells
  | .onceHold => min (v.firstCell + k) (cells - 1)
  | .onceRetire => min (v.firstCell + k) (cells - 1)

/-- Source column of a wall column (R128). -/
def sourceColumn (v : Values) (x : Nat) : Nat := v.sx + ((x - v.dx) * v.stepX + v.stepX / 2) / 65536

/-- Source row within the cell of a wall row (R128). -/
def sourceRow (v : Values) (y : Nat) : Nat := v.sy + ((y - v.dy) * v.stepY + v.stepY / 2) / 65536

/-- The frame store byte of a stored pixel (R19, R20, R129). -/
def pixelAddress (d : Desc) (column storedRow : Nat) : Nat :=
  d.basePage * pageBytes + (storedRow * d.width + column) * d.format.bytes

/-- Five bits widened to eight by repeating the top bits (R132). -/
def widen5 (n : Nat) : Nat := n * 8 + n / 4

/-- Six bits widened to eight (R132). -/
def widen6 (n : Nat) : Nat := n * 4 + n / 16

/-- The colour of a HALF pixel's number (R19, R132). -/
def halfColour (n : Nat) : Rgb := ⟨widen5 (n / 2048), widen6 (n / 32 % 64), widen5 (n % 32)⟩

/-- The widened colour of the pixel at an address; none where its stored value equals the key (R132). -/
def sourceColour (byteAt : Nat → Byte) (d : Desc) (address : Nat) : Option Rgb :=
  let b := fun k => (byteAt (address + k)).toNat
  match d.format with
  | .half =>
    let n := b 0 + 256 * b 1
    if d.key = some (.half n) then none else some (halfColour n)
  | .full =>
    if d.key = some (.full (b 0) (b 1) (b 2)) then none else some ⟨b 0, b 1, b 2⟩

/-- One channel blended (R133). -/
def blendChannel (w s c : Nat) : Nat := (s * w + c * (256 - w) + 128) / 256

/-- A source colour blended into a colour with a weight (R133). -/
def blend (w : Nat) (s c : Rgb) : Rgb :=
  ⟨blendChannel w s.red c.red, blendChannel w s.green c.green, blendChannel w s.blue c.blue⟩

/-- A colour scaled by a level (R134, R159). -/
def scaleColour (level : Nat) (c : Rgb) : Rgb := ⟨c.red * level / 256, c.green * level / 256, c.blue * level / 256⟩

/-- The entry's colour at a wall point; none where it does not contribute (R127). -/
def Entry.colourAt (byteAt : Nat → Byte) (e : Entry) (x y : Nat) : Option Rgb :=
  match e.desc with
  | none => none
  | some d =>
    if e.values.destination.contains x y && 0 < e.weight then
      sourceColour byteAt d
        (pixelAddress d (sourceColumn e.values x) (e.cell * d.cellHeight + sourceRow e.values y))
    else none

/-- The entry drawn over a colour (R127). -/
def Entry.drawOver (byteAt : Nat → Byte) (x y : Nat) (c : Rgb) (e : Entry) : Rgb :=
  match e.colourAt byteAt x y with
  | none => c
  | some s => blend e.weight s c

/-- The pixel sent for a wall point: the background, the entries in composition order, the frame level (R127). -/
def composePoint (byteAt : Nat → Byte) (background : Rgb) (level : Nat) (entries : List Entry) (x y : Nat) : Rgb :=
  scaleColour level (entries.foldl (fun c e => e.drawOver byteAt x y c) background)

/-- A line of one colour at the frame level (R145, R161). -/
def flatLine (width level : Nat) (c : Rgb) : List Rgb := List.replicate width (scaleColour level c)

/-- Line `py` of a PICTURE frame (R10, R127). -/
def composeLine (byteAt : Nat → Byte) (background : Rgb) (f : FrameRec) (py : Nat) : List Rgb :=
  (List.range f.panelW).map fun px =>
    composePoint byteAt background f.level f.entries (f.originX + px) (f.originY + py)

/-- The run of bytes an entry needs for line `py` of a frame, if it meets the line (R135). -/
def Entry.run (f : FrameRec) (py : Nat) (e : Entry) : Option (Nat × Nat) :=
  match e.desc with
  | none => none
  | some d =>
    let v := e.values
    let y := f.originY + py
    let first := max f.originX v.dx
    let beyond := min (f.originX + f.panelW) (v.dx + v.dw)
    if 0 < e.weight && v.dy ≤ y && y < v.dy + v.dh && first < beyond then
      let row := e.cell * d.cellHeight + sourceRow v y
      let u0 := sourceColumn v first
      let u1 := sourceColumn v (beyond - 1)
      some (pixelAddress d u0 row, (u1 + 1 - u0) * d.format.bytes)
    else none

/-- The runs of the line fetch of line `py`, in composition order (R135, R139). -/
def lineRuns (f : FrameRec) (py : Nat) : List (Nat × Nat) := f.entries.filterMap fun e => e.run f py

/-- What the compositor draws of a record in frame `f` (R125, R130, R131). -/
def State.entryOf (s : State) (f : Frame) (id : PlacementId) : Option Entry :=
  let r := s.ptab.get id
  match r.shown with
  | none => none
  | some v =>
    let d := (s.surface v.surface).desc
    some ⟨v, cellAt v ((d.map (·.cells)).getD 1) (r.age f), effectiveWeight v (r.fadeWeight f), d⟩

/-- The entries of a tile's active list in frame `f`, in composition order. -/
def State.entriesOf (s : State) (f : Frame) (t : TileId) : List Entry :=
  (s.cvb.active.get t).ids.filterMap fun id => s.entryOf f id

end Sys2Proof.Machine
end

