-- ==== Sys2Proof/Machine/Link.lean ====
section
/-! DEFINITION. The command link controller: which frames a part takes, the phase test, executing, responses and broadcast
results, reads, the POLL grant (10, sections 10.1 to 10.3 and R191). -/

/-- Free value (entry 8): the bytes of a response payload that is not empty, of which the spec gives no layout. -/
opaque Sys2Proof.Config.payloadBytes : Sys2Proof.Machine.Payload → List Sys2Proof.Byte

namespace Sys2Proof.Machine

/-- What the owning block answers: the command's result; that its result comes in a later step (START, UPLOAD; R179); or nothing
at all (SOFT_RESET; R185). -/
inductive Result where
  | done (status : Status) (payload : Payload)
  | begins (job : Job)
  | silent
  deriving DecidableEq, Repr

/-- A command's own effect and answer, past tests 1 to 5 of R178. -/
abbrev CommandOp := State → State × Result

/-- An answer that changes nothing. -/
def State.answer (s : State) (status : Status) (payload : Payload) : State × Result := (s, .done status payload)

/-- Test 5 of R178: CONFIG refuses STOP; RUNNING refuses SET_TIMING, SET_GEOMETRY, SET_TILE and START (R182). -/
def phaseRefuses : Phase → Nat → Bool
  | .starting, _ => true
  | .config, code => code = 7
  | .running, code => code = 3 || code = 4 || code = 5 || code = 6

/-- Tests 1 to 3 of R178 for a command sent whole: its length and its addressing. Its code and its payload length are those of
the command. -/
def hostRefusal (unit : Nat) (c : HostCmd) : Option Status :=
  if c.payload.length > 4101 then some .badLength
  else if wrongAddressing unit c.code then some .badCommand
  else none

/-- Whether a frame with this unit byte is for this part: its UNIT strap, or broadcast (R177). -/
def State.forThisPart (s : State) (unit : Nat) : Bool := unit = s.clc.straps.unit.val || unit = broadcastUnit

/-- A frame is taken: the receive buffer holds it, a waiting response and a POLL answer are dropped (R177, R179, R191). -/
def State.takeFrame (bytes : List Byte) (s : State) : State :=
  { s with clc := { s.clc with rx := bytes, response := none, pollAnswer := none } }

/-- A result returns: it is recorded for a broadcast command, and otherwise waits as the response frame (R180, R181). -/
def State.deliver (code : Nat) (broadcast overrun : Bool) (status : Status) (payload : Payload) (s : State) : State :=
  { s with clc := { s.clc with
      executing := none
      lastBroadcast := if broadcast then some (code, status) else s.clc.lastBroadcast
      response := if broadcast then s.clc.response else some ⟨status, code, overrun, payload⟩ } }

/-- The answer of the owning block reaches the command link controller (R179). -/
def State.finish (code : Nat) (broadcast : Bool) (r : State × Result) : State :=
  match r.2 with
  | .done status payload => r.1.deliver code broadcast false status payload
  | .begins job => { r.1 with clc := { r.1.clc with executing := some ⟨code, broadcast, false, job⟩ } }
  | .silent => r.1

/-- The executing command with its overrun mark set. -/
def Executing.marked (e : Executing) : Executing := { e with overrun := true }

/-- A frame for this part that arrives while a command executes is discarded, marked and reported (R179). -/
def State.overrunBy (unit code : Nat) (s : State) : State :=
  { s with clc := { s.clc with executing := s.clc.executing.map Executing.marked } }.report (.linkOverrun unit code)

/-- What a part does with a frame that has a header: dropped in STARTING or where it is for another unit; discarded while a command
executes; refused by tests 1 to 5 of R178; or executed by `op`. `refusal` is the result of tests 1 to 4. -/
def State.receive (bytes : List Byte) (unit code : Nat) (refusal : Option Status) (op : CommandOp) (s : State) : State :=
  if s.phase = .starting then s
  else if s.forThisPart unit = false then s
  else if s.clc.executing.isSome then s.overrunBy unit code
  else
    let broadcast := decide (unit = broadcastUnit)
    match refusal with
    | some status => (s.takeFrame bytes).deliver code broadcast false status .empty
    | none =>
      if phaseRefuses s.phase code then (s.takeFrame bytes).deliver code broadcast false .wrongPhase .empty
      else State.finish code broadcast (op (s.takeFrame bytes))

/-- A host command's frame, sent whole to a unit byte. -/
def State.hostCommand (unit : Nat) (c : HostCmd) (op : CommandOp) (s : State) : State :=
  s.receive (encodeFrame unit c) unit c.code (hostRefusal unit c) op

/-- The result of the executing command returns, with its overrun mark (R179, R181). -/
def State.returnResult (status : Status) (payload : Payload) (s : State) : State :=
  match s.clc.executing with
  | none => s
  | some e => s.deliver e.code e.broadcast e.overrun status payload

/-- The answer of a read of unit 15: the POLL answer, if the part holds one; else the part leaves the line idle (R180). -/
def State.pollRead (s : State) : ReadOut :=
  match s.clc.pollAnswer with
  | none => .idleLine
  | some a => .frame ⟨.ok, 32, false, .poll a⟩

/-- The answer of a read of the part's own unit (R180). -/
def State.unitRead (s : State) : ReadOut :=
  if s.phase = .starting || s.clc.executing.isSome then .notReady
  else
    match s.clc.response with
    | none => .notReady
    | some r => .frame r

/-- READ_TRANSFER (R180, R191): a part's answer to a read of `unit`; an answer carried whole is collected. A POLL answer is dropped
when it is read. -/
def execReadTransfer (unit : Nat) (complete : Bool) (s : State) : Host.Outcome State Fault Refusal :=
  if unit = broadcastUnit then
    .next { s with clc := { s.clc with
      readOut := s.pollRead
      pollAnswer := if complete then none else s.clc.pollAnswer } }
  else if unit = s.clc.straps.unit.val then
    .next { s with clc := { s.clc with
      readOut := s.unitRead
      response :=
        if complete && s.phase ≠ .starting && s.clc.executing.isNone then none else s.clc.response } }
  else .next { s with clc := { s.clc with readOut := .idleLine } }

/-! ### The bytes of an answer -/

/-- The bytes of a response payload: none where the response carries none. -/
def Payload.bytes : Payload → List Byte
  | .empty => []
  | p => Config.payloadBytes p

/-- A response frame: the status code, the command code, the overrun mark, the length of the payload, the payload (10, section 10.6
"Response frame"). -/
def Response.bytes (r : Response) : List Byte :=
  leBytes 1 r.status.code ++ leBytes 1 r.code ++ leBytes 1 (if r.overrun then 1 else 0)
    ++ leBytes 2 r.payload.bytes.length ++ r.payload.bytes

/-- What the response data line carries in a read transfer: the response frame, or the single NOT_READY byte, which is also how the
idle line reads (R180). -/
def ReadOut.bytes : ReadOut → List Byte
  | .idleLine => [notReadyByte]
  | .notReady => [notReadyByte]
  | .frame r => r.bytes

/-! ### The grant line -/

/-- Whether GIN reads asserted (R191). -/
def Pins.ginReads (p : Pins) : Bool :=
  match p.gin with
  | .tied => true
  | .driven asserted => asserted

/-- GIN once the part before asserts its GOUT (R191): a tied input is asserted all along. -/
def Pins.ginRisen (p : Pins) : Pins :=
  match p.gin with
  | .tied => p
  | .driven _ => { p with gin := .driven true }

/-- GIN after a POLL on the link, which releases GOUT in the parts that take it and asserts it in none (R191): a tied input stays
asserted, a driven one that is asserted stays so only where the GOUT before it `stays`. -/
def Pins.ginAfterPoll (stays : Bool) (p : Pins) : Pins :=
  match p.gin with
  | .tied => p
  | .driven asserted => { p with gin := .driven (asserted && stays) }

/-- The frame of a broadcast POLL (10, section 10.6). -/
def pollFrame : List Byte := [15, 32, 0, 0]

/-- A frame passes on the command link that all parts share: where it is a POLL, GIN follows what it does to the part before,
whether or not this part takes it (R191, entry 40). -/
def State.hears (bytes : List Byte) (s : State) : State :=
  if bytes = pollFrame then
    { s with
      pins := s.pins.ginAfterPoll (Config.goutBeforeStays s.freeCount)
      freeCount := s.freeCount + 1 }
  else s

/-- Whether the part drives GOUT asserted: as GIN reads while it passes the grant, released while it awaits or holds it (R185,
R191). -/
def State.goutAsserted (s : State) : Bool :=
  match s.clc.grant with
  | .passing => s.pins.ginReads
  | .awaiting => false
  | .holding => false

/-- What a part awaiting the grant makes of it: it takes it where it wants attention, answers NONE at the chain end, or passes it on
(R191). -/
def State.takeGrant (s : State) : Clc :=
  if s.wantsAttention then
    { s.clc with grant := .holding, pollAnswer := some (.flags s.clc.straps.unit s.evb.flagsSet) }
  else if s.clc.straps.chainEnd then { s.clc with grant := .holding, pollAnswer := some .none }
  else { s.clc with grant := .passing }

/-- GRANT_ARRIVAL (R191): GIN reads asserted, and a part awaiting the grant acts on it. -/
def execGrantArrival (s : State) : Host.Outcome State Fault Refusal :=
  .next { s with
    pins := s.pins.ginRisen
    clc := match s.clc.grant with
      | .awaiting => s.takeGrant
      | .passing => s.clc
      | .holding => s.clc }

end Sys2Proof.Machine
end

