-- ==== Sys2Proof/Machine/StoreCtl.lean ====
section
/-! DEFINITION. The frame store controller and the lines it serves: grants, line fetches, due times and underruns, upload writes,
pacing windows (07). -/

namespace Sys2Proof.Machine

/-- The most bytes a burst moves (R137). -/
def burstBytes : Nat := 256

/-- How long a fetch burst holds the store: 0.1 µs (R137). -/
def fetchBurstTicks : Nat := Config.ticksPerMicro / 10

/-- How long a load burst holds the store: 2 µs, whatever its length (R137). -/
def loadBurstTicks : Nat := 2 * Config.ticksPerMicro

/-- A load burst's charge on the budget, in µs (R140). -/
def loadBurstCharge : Nat := 2

/-- A pacing window: 100 µs (R141). -/
def pacingWindowTicks : Nat := 100 * Config.ticksPerMicro

/-- The budget of a pacing code, in µs (R141). -/
def pacingBudget (code : Fin 4) : Nat := 20 * (code.val + 1)

/-! ### The grant rule -/

/-- Whether a waiting fetch comes before the best found so far: an earlier due time, or the first found (R140). -/
def earlierFetch (best : Option (TileId × Fetch)) (e : TileId × Option Fetch) : Option (TileId × Fetch) :=
  match e.2, best with
  | none, b => b
  | some g, none => some (e.1, g)
  | some g, some (t, h) => if g.due < h.due then some (e.1, g) else some (t, h)

/-- The fetch being served, while it waits for its next burst (R140). -/
def Fsc.served (f : Fsc) : Option (TileId × Fetch) := f.serving.bind fun t => (f.fetches.get t).map fun g => (t, g)

/-- The fetch of the second case of R140: the one being served, unless another is due earlier; else the earliest due, and of those
the lowest tile. -/
def Fsc.earliest (f : Fsc) : Option (TileId × Fetch) := f.fetches.entries.foldl earlierFetch f.served

/-- The next burst of a fetch: its first byte and its length (R139). -/
def Fetch.nextBurst (g : Fetch) : Nat × Nat :=
  match g.runs with
  | [] => (0, 0)
  | (a, n) :: _ => (a, min burstBytes n)

/-- The runs left after that burst (R139). -/
def Fetch.runsAfterBurst (g : Fetch) : List (Nat × Nat) :=
  match g.runs with
  | [] => []
  | (a, n) :: rest => if n ≤ burstBytes then rest else (a + burstBytes, n - burstBytes) :: rest

/-- The first byte of the next load burst (R143). -/
def UploadWrite.nextByte (u : UploadWrite) : Nat := u.startByte + burstBytes * u.bursts

/-- The length of the next load burst (R143). -/
def UploadWrite.nextLength (u : UploadWrite) : Nat := min burstBytes u.data.length

/-- One load burst granted: it is charged to the budget of the window in which it begins and sets that window's load mark, and no
other's where it ends in the next (R140, R141; the mark is a DESIGN CHOICE, entry 39). -/
def Fsc.grantLoad (now : Nat) (u : UploadWrite) (f : Fsc) : Fsc :=
  { f with
    burst := some ⟨.load, u.nextByte, u.nextLength, now + loadBurstTicks⟩
    budget := f.budget - loadBurstCharge
    loadMark := true
    owed := false }

/-- One fetch burst granted: its fetch is the one being served, until it leaves the queue or one due earlier is taken in its place
(R140, entry 41). -/
def Fsc.grantFetch (now : Nat) (t : TileId) (g : Fetch) (f : Fsc) : Fsc :=
  { f with burst := some ⟨.fetch t false, g.nextBurst.1, g.nextBurst.2, now + fetchBurstTicks⟩, serving := some t }

/-- The grant rule on a free store (R140). -/
def Fsc.granted (now : Nat) (f : Fsc) : Fsc :=
  if f.burst.isSome then f
  else
    match f.upload with
    | none =>
      match f.earliest with
      | some (t, g) => f.grantFetch now t g
      | none => f
    | some u =>
      if f.owed then f.grantLoad now u
      else
        match f.earliest with
        | some (t, g) => f.grantFetch now t g
        | none => if loadBurstCharge ≤ f.budget then f.grantLoad now u else f

/-- The controller grants the next burst, where the store is free; none during the calibration of STARTING (R140, R148). -/
def State.grant (s : State) : State := { s with fsc := if s.phase = .starting then s.fsc else s.fsc.granted s.now }

/-! ### Fetches and lines -/

/-- A burst whose fetch is cancelled runs to its end and is discarded (R145). -/
def Burst.cancelledFor (t : TileId) (b : Burst) : Burst :=
  match b.kind with
  | .fetch u stale => { b with kind := .fetch u (stale || u = t) }
  | .load => b

/-- A burst whose fetch is cancelled with every other one, at a boundary (R147). -/
def Burst.cancelled (b : Burst) : Burst :=
  match b.kind with
  | .fetch u _ => { b with kind := .fetch u true }
  | .load => b

/-- The fetch of a tile leaves the queue, complete or cancelled, and is served no longer (R136, R140). -/
def Fsc.dropFetch (t : TileId) (f : Fsc) : Fsc :=
  { f with fetches := f.fetches.set t none, serving := if f.serving = some t then none else f.serving }

/-- The fetch of a tile is cancelled and leaves the queue (R145). -/
def Fsc.cancelFetch (t : TileId) (f : Fsc) : Fsc := { f.dropFetch t with burst := f.burst.map (Burst.cancelledFor t) }

/-- Every fetch is cancelled (R147). -/
def Fsc.cancelFetches (f : Fsc) : Fsc :=
  { f with fetches := Table.replicate 16 none, serving := none, burst := f.burst.map Burst.cancelled }

/-- The due time of line `py` of a frame of `panelH` lines: the boundary plus (py + 1) line periods, rounded down to a tick
(R138, entry 26). -/
def State.lineDueAt (s : State) (panelH py : Nat) : Nat :=
  s.csu.boundaryAt + (py + 1) * s.rateNow.period / (panelH + 1)

/-- The line the compositor forms of line `py` of a tile's frame (R127, R139). -/
def State.formLine (s : State) (t : TileId) (py : Nat) : List Rgb :=
  composeLine s.storeByte s.bgNow (s.frames.get t) py

/-- Whether the compositor requests a fetch of line `py` of a tile (R138, R147, R148). A PICTURE frame kept through RST_KEEP or
SOFT_RESET has its fetches requested again once STARTING is over (DESIGN CHOICE, entry 38). -/
def State.wantsLine (s : State) (t : TileId) (py : Nat) : Bool :=
  s.phase ≠ .starting && (s.frames.get t).kind = .picture && py < (s.frames.get t).panelH

/-- Line `py` of a tile is requested: a fetch with runs joins the queue; one with none is complete at once and the line is formed
(R138, R139). -/
def State.requestLine (t : TileId) (py : Nat) (s : State) : State :=
  let f := s.frames.get t
  let runs := lineRuns f py
  { s with
    fsc := { s.fsc with
      fetches :=
        if s.wantsLine t py && !runs.isEmpty then s.fsc.fetches.set t (some ⟨py, s.lineDueAt f.panelH py, runs⟩)
        else s.fsc.fetches }
    cmp :=
      if s.wantsLine t py && runs.isEmpty then s.cmp.modify t fun c => { c with formed := some (s.formLine t py) }
      else s.cmp }

/-- Line 0 of every PICTURE tile is requested, at a boundary (R138, R147). -/
def State.requestFirstLines (s : State) : State := (List.finRange 16).foldl (fun s t => s.requestLine t 0) s

/-- A line goes to the picture link. -/
def State.putLine (t : TileId) (line : List Rgb) (s : State) : State :=
  { s with links := s.links.modify t fun l => { l with line := some line } }

/-- A PICTURE line goes to the picture link and becomes the previous line sent (R145). -/
def State.sendPicture (t : TileId) (line : List Rgb) (s : State) : State :=
  { s.putLine t line with cmp := s.cmp.modify t fun c => { c with formed := none, previous := some line } }

/-- The line sent on an underrun of line `py` (R145). -/
def State.underrunLine (s : State) (t : TileId) (py : Nat) : List Rgb :=
  let f := s.frames.get t
  let background := flatLine f.panelW f.level s.bgNow
  if py = 0 then background else ((s.cmp.get t).previous).getD background

/-- An underrun of line `py`: the fetch is cancelled, the line sent again or the background sent, the count advanced, the event
reported (R145, R146). -/
def State.underrun (t : TileId) (py : Nat) (s : State) : State :=
  let counted := { s with
    fsc := s.fsc.cancelFetch t
    cmp := s.cmp.modify t fun c => { c with underruns := min 65535 (c.underruns + 1) } }
  (counted.sendPicture t (s.underrunLine t py)).report (.underrun t s.csu.frame py)

/-- The tile's next line is counted. -/
def State.advanceLine (t : TileId) (s : State) : State :=
  { s with frames := s.frames.modify t fun f => { f with nextLine := f.nextLine + 1 } }

/-- What is sent at the due time of line `py` of a tile, by the kind of the frame (R145, R161). -/
def State.sendDueLine (t : TileId) (py : Nat) (s : State) : State :=
  let f := s.frames.get t
  match f.kind with
  | .picture =>
    match (s.cmp.get t).formed with
    | some line => s.sendPicture t line
    | none => s.underrun t py
  | .flat => s.putLine t (flatLine f.panelW f.level f.flat)
  | .black => s.putLine t (flatLine f.panelW f.level ⟨0, 0, 0⟩)
  | .hold => s
  | .idle => s
  | .none => s

/-- Kinds whose header is followed by lines (R161). -/
def kindHasLines : FrameKind → Bool
  | .picture => true
  | .flat => true
  | .black => true
  | .hold => false
  | .idle => false
  | .none => false

/-- LINE_DUE (R145): the next line of the tile's frame is sent and the following line's fetch requested. Where the frame has no line
left nothing is due (entry 6). -/
def execLineDue (t : TileId) (s : State) : Host.Outcome State Fault Refusal :=
  let f := s.frames.get t
  if kindHasLines f.kind && f.nextLine < f.panelH then
    let py := f.nextLine
    .next ((((s.atLeast (s.lineDueAt f.panelH py)).sendDueLine t py).advanceLine t).requestLine t (py + 1)).grant
  else .next s

/-! ### Uploads and bursts -/

/-- The upload write ends: the wait mark is cleared and nothing is owed (R141, R142). -/
def Fsc.endUpload (f : Fsc) : Fsc := { f with upload := none, waitMark := false, owed := false }

/-- The record of a surface after `taken` more of its bytes are in the store (R28). -/
def SurfaceState.loadedMore (taken : Nat) : SurfaceState → SurfaceState
  | .empty => .empty
  | .loading d loaded => if loaded + taken = d.totalBytes then .ready d else .loading d (loaded + taken)
  | .ready d => .ready d

/-- loaded after a completion, as the response carries it (R28). -/
def SurfaceState.loadedCount : SurfaceState → Nat
  | .empty => 0
  | .loading _ loaded => loaded
  | .ready d => d.totalBytes

/-- The completion of an upload write (R28): loaded advances, the surface may become READY, the result returns. -/
def State.completeUpload (s : State) : State :=
  let ended := { s with fsc := s.fsc.endUpload }
  match s.clc.executing.map Executing.job with
  | some (.upload i taken) =>
    let st := (s.surface i).loadedMore taken
    let moved := ended.setSurface i st
    let told := if st.isReady then (moved.report (.surfaceReady i)).retestRdy else moved
    told.returnResult .ok (.uploaded taken st.loadedCount)
  | some .start => ended
  | none => ended

/-- The fetch of a tile after one of its bursts has ended: complete, its line formed, or with its runs left (R139). -/
def State.fetchBurstDone (t : TileId) (s : State) : State :=
  match s.fsc.fetches.get t with
  | none => s
  | some g =>
    let left := g.runsAfterBurst
    { s with
      fsc :=
        if left = [] then s.fsc.dropFetch t
        else { s.fsc with fetches := s.fsc.fetches.set t (some { g with runs := left }) }
      cmp :=
        if left = [] then s.cmp.modify t fun c => { c with formed := some (s.formLine t g.line) }
        else s.cmp }

/-- The upload write after a load burst of it has ended: the burst's bytes are in the store; with the last of them the write is
complete (R143). -/
def State.loadBurstDone (b : Burst) (s : State) : State :=
  match s.fsc.upload with
  | none => s
  | some u =>
    let left := u.data.drop b.length
    let written := { s with
      store := Memory.writeBytes s.store b.address (u.data.take b.length)
      fsc := { s.fsc with upload := some { u with data := left, bursts := u.bursts + 1 } } }
    if left = [] then written.completeUpload else written

/-- Whether a burst lies inside the strapped store (R25, entry 5). -/
def State.burstInside (s : State) (b : Burst) : Bool :=
  b.address + b.length ≤ storePages s.clc.straps.store * pageBytes

/-- The burst in progress ends, and the next one is granted (R137, R140). -/
def State.endBurst (b : Burst) (s : State) : State :=
  let freed := { s.atLeast b.endsAt with fsc := { s.fsc with burst := none } }
  match b.kind with
  | .fetch t false => (freed.fetchBurstDone t).grant
  | .fetch _ true => freed.grant
  | .load => (freed.loadBurstDone b).grant

/-- BURST_END (R140). A burst outside the strapped store faults (entry 5). -/
def execBurstEnd (s : State) : Host.Outcome State Fault Refusal :=
  match s.fsc.burst with
  | none => .next s
  | some b => if s.burstInside b then .next (s.endBurst b) else .fault (.outsideStore b.address)

/-- The burst in progress is the last one of the upload write. -/
def State.lastLoadBurst (s : State) : Option Burst :=
  match s.fsc.burst, s.fsc.upload with
  | some b, some u => if b.kind = .load && u.data.length ≤ b.length then some b else none
  | _, _ => none

/-- UPLOAD_COMPLETE (R28): the end of the upload write's last burst; nothing where the burst in progress is another (entries 6 and
22). -/
def execUploadComplete (s : State) : Host.Outcome State Fault Refusal :=
  match s.lastLoadBurst with
  | none => .next s
  | some b => if s.burstInside b then .next (s.endBurst b) else .fault (.outsideStore b.address)

/-- A pacing window begins (R141, R142). -/
def Fsc.newWindow (f : Fsc) : Fsc :=
  { f with
    owed := f.waitMark && !f.loadMark
    budget := pacingBudget f.pacing
    loadMark := false
    waitMark := f.upload.isSome
    windowStart := f.windowStart + pacingWindowTicks }

/-- PACING_WINDOW (R141). The windows do not run in STARTING (R148). -/
def execPacingWindow (s : State) : Host.Outcome State Fault Refusal :=
  if s.phase = .starting then .next s
  else .next { s.atLeast (s.fsc.windowStart + pacingWindowTicks) with fsc := s.fsc.newWindow }.grant

end Sys2Proof.Machine
end

