-- ==== Sys2Proof/Machine/Boundary.lean ====
section
/-! DEFINITION. What every frame boundary of a part does once its frame number is known: the ports, the frame kinds and headers, and
the line fetches (05 to 08). -/

namespace Sys2Proof.Machine

/-- The geometry of the lines a frame is sent with: the held one while RUNNING, the setting in any other phase (R138, R161). -/
def State.lineGeometry (s : State) : Geometry := if s.phase = .running then s.held.setting else s.geo

/-- The wall point of a tile's pixel (0, 0): the corner of its held visible rectangle (R10). -/
def State.originOf (s : State) (t : TileId) : Nat × Nat :=
  match s.held.rects.get t with
  | none => (0, 0)
  | some r => (r.x, r.y)

/-- The frame that begins on port `t`, as decided at its boundary (R125, R159 to R161). `old` holds the ports before the
boundary's own step. -/
def State.openFrameOf (old : Table Port 16) (s : State) (t : TileId) : FrameRec where
  kind := s.decideKind old t
  level := effectiveLevel (s.tiles.get t).level (s.ports.get t).temperature
  temperature := (s.ports.get t).temperature
  flat := (s.tiles.get t).flat
  panelW := s.lineGeometry.panelW
  panelH := s.lineGeometry.panelH
  originX := (s.originOf t).1
  originY := (s.originOf t).2
  entries := if s.decideKind old t = .picture then s.entriesOf s.csu.frame t else []
  nextLine := 0

/-- The header of a frame; none for the kind NONE (R161, R162). -/
def headerOf (frame : Frame) (f : FrameRec) : Option TileHeader :=
  if f.kind = .none then none
  else some ⟨frame.setWidth 16, if kindHasLines f.kind then f.panelH else 0, f.kind⟩

/-- Port `t`'s link as the frame begins: the header where there is one (R162). -/
def LinkOut.begin (header : Option TileHeader) (l : LinkOut) : LinkOut :=
  match header with
  | none => l
  | some h => { l with header := some h }

/-- The frames of every port begin: kinds, levels and headers; unsent lines and waiting fetches of the frame before are dropped
(R147, R160 to R162). -/
def State.openFrames (old : Table Port 16) (s : State) : State :=
  { s with
    frames := Table.ofFn fun t => s.openFrameOf old t
    links := s.links.mapIdx fun t l => l.begin (headerOf s.csu.frame (s.openFrameOf old t))
    fsc := s.fsc.cancelFetches
    cmp := s.cmp.mapIdx fun _ c => { c with formed := none } }

/-- A frame boundary of the part comes at the time `now`: the frame number, the start of the frame, and the background and rate in
force from it on (R91, R126). -/
def State.beginFrame (frame : Frame) (s : State) : State :=
  { s with
    csu := { s.csu with frame := frame, boundaryAt := s.now }
    bgNow := s.bg
    rateNow := s.rate }

/-- The flag of a word is handed to the tile ports; BLACKOUT is reported where it passes from clear to set (R109, R174; entry 17 for
the word of a master in STARTING). -/
def State.handOver (flag : Bool) (frame : Frame) (s : State) : State :=
  { s with csu := { s.csu with blackoutFlag := flag } }.reportAll
    (if flag && !s.csu.blackoutFlag then [.blackout frame] else [])

/-- One port takes a boundary by itself (entry 13): its step, and the frame that begins on it with its waiting fetch and formed line
dropped. -/
def State.portBoundary (t : TileId) (s : State) : State :=
  let stepped := s.changePort t (s.portStep t)
  { stepped with
    frames := stepped.frames.set t (stepped.openFrameOf s.ports t)
    fsc := stepped.fsc.cancelFetch t
    cmp := stepped.cmp.modify t fun c => { c with formed := none } }

/-- TRAINING_ATTEMPT_FAIL (R154): the sixth boundary of an attempt, for this port alone (entry 13). -/
def execTrainingAttemptFail (t : TileId) (s : State) : Host.Outcome State Fault Refusal :=
  match (s.ports.get t).state with
  | .training _ n => if n + 1 < 6 then .next s else .next (s.portBoundary t)
  | _ => .next s

/-- TILE_LOST (R155): the boundary after the third frame without a locked status, for this port alone (entry 13). -/
def execTileLost (t : TileId) (s : State) : Host.Outcome State Fault Refusal :=
  match (s.ports.get t).state with
  | .up =>
    if (s.ports.get t).lockSeen = false ∧ 3 ≤ (s.ports.get t).missed + 1 then .next (s.portBoundary t) else .next s
  | _ => .next s

/-- DRAIN_END (R156): the boundary after the BLACK frame of a drain, for this port alone (entry 13). -/
def execDrainEnd (t : TileId) (s : State) : Host.Outcome State Fault Refusal :=
  match (s.ports.get t).state with
  | .draining .blackSent _ => .next (s.portBoundary t)
  | _ => .next s

/-- The end of every boundary: ports, FRAME_TICK, frames, first lines, grant (entry 15 for the order). -/
def State.closeBoundary (s : State) : State :=
  (((((s.stepPorts).report (.frameTick s.csu.frame)).openFrames s.ports).requestFirstLines).grant)

end Sys2Proof.Machine
end

