-- ==== Sys2Proof/Machine/Chain.lean ====
section
/-! DEFINITION. Cuts, abandons and the agreement across a chain: the master's decision, sync words taken and counted, loss and
relock, the own timing of a slave (04, sections 4.7 to 4.9, and 05). -/

namespace Sys2Proof.Machine

/-! ### Nomination, cut, abandon -/

/-- `g` becomes NOMINATED at frame `f` and its preparation begins (R77, R97). -/
def State.nominate (g : GroupId) (f : Frame) (s : State) : State :=
  { s.setGroupState g (.nominated f) with
    csu := { s.csu with readinessGiven := false }
    cvb := s.cvb.begin s.held g }

/-- The group record after a cut at `f` (R83). -/
def GroupRec.afterCut (f : Frame) (r : GroupRec) : GroupRec :=
  { r with state := .idle, lastCutFrame := some f, cuts := r.cuts + 1 }

/-- The group record after an abandon (R85). -/
def GroupRec.afterAbandon (r : GroupRec) : GroupRec := { r with state := .idle, abandons := r.abandons + 1 }

/-- The chain state after a cut of `g` at `f` (R83). -/
def Csu.afterCut (g : GroupId) (f : Frame) (c : Csu) : Csu :=
  { c with cutSequence := c.cutSequence + 1, lastCut := some (g, f) }

/-- The records, the group and the chain state after a cut of `g` at `f` (R80 to R83). -/
def State.cutRecords (g : GroupId) (f : Frame) (s : State) : State :=
  { s.changeRecords (fun _ r => r.cutAt g f) with
    groups := s.groups.modify g (GroupRec.afterCut f)
    csu := s.csu.afterCut g f }

/-- The coverage lists after a cut of `g` at `f` (R84): of the records as the cut leaves them. -/
def State.listsAfterCut (g : GroupId) (f : Frame) (s : State) : Cvb :=
  (s.cvb.cut s.held (s.cutRecords g f).ptab g).without (s.removalsOf fun _ r => r.cutAt g f)

/-- A cut of `g` at frame `f`, whole (R79 to R84). -/
def State.executeCut (g : GroupId) (f : Frame) (s : State) : State :=
  (((s.cutRecords g f).report (.cutDone g (s.csu.cutSequence + 1) f)).activate (s.listsAfterCut g f)).settleHold

/-- An abandon of `g`, which is NOMINATED or IN_DOUBT, at the frame in progress (R85). -/
def State.executeAbandon (g : GroupId) (s : State) : State :=
  ({ s with
    groups := s.groups.modify g GroupRec.afterAbandon
    cvb := s.cvb.dropFor g }.report (.commitAbandoned g s.csu.frame)).settleHold

/-- A DESYNC report on a word (R107); the groups concerned by entry 19. -/
def State.desync (reason : DesyncReason) (w : SyncWord) (groups : List GroupId) (s : State) : State :=
  s.report (.desync reason w.frame w.cutSequence s.csu.cutSequence groups)

/-- cut_sequence and last_cut take the word's values. -/
def State.adoptSequence (w : SyncWord) (s : State) : State :=
  { s with csu := { s.csu with cutSequence := w.cutSequence, lastCut := w.lastCut } }

/-! ### A word on a LOCKED part -/

/-- The last-cut group and frame of a word, where its sequence is one more than the part's, its last-cut group is `g` and readiness
was given (R96, third row). -/
def State.lateCutOf (s : State) (w : SyncWord) (held : Option GroupId) : Option (GroupId × Frame) :=
  match w.lastCut, held with
  | some (g, f), some h =>
    if w.cutSequence = s.csu.cutSequence + 1 ∧ g = h ∧ s.csu.readinessGiven then some (g, f) else none
  | _, _ => none

/-- The check of R96 for a PLAIN, NOMINATE or ABANDON word; `previous` is the frame of the word before. -/
def State.checkSequence (w : SyncWord) (previous : Frame) (s : State) : State :=
  if w.cutSequence = s.csu.cutSequence then
    match s.nominatedGroup with
    | none => s
    | some g => if w.frame = previous + 1 then s else s.executeAbandon g
  else
    match s.lateCutOf w s.nominatedGroup with
    | some (g, f) => s.executeCut g f
    | none => (s.desync .sequence w []).adoptSequence w

/-- A NOMINATE word (R97). -/
def State.takeNominate (g : GroupId) (w : SyncWord) (s : State) : State :=
  match s.heldGroup with
  | none => s.nominate g w.frame
  | some h =>
    let told := s.desync .secondNomination w [g, h]
    { told with csu := { told.csu with desyncHold := some g } }

/-- A CUT word (R98). -/
def State.takeCut (g : GroupId) (w : SyncWord) (s : State) : State :=
  let told := if w.cutSequence = s.csu.cutSequence + 1 then s else s.desync .sequence w [g]
  (told.executeCut g w.frame).adoptSequence w

/-- An ABANDON word (R99). -/
def State.takeAbandon (g : GroupId) (s : State) : State :=
  match s.groupState g with
  | .nominated _ => s.executeAbandon g
  | .idle =>
    if s.csu.desyncHold = some g then
      match s.heldGroup with
      | some h => s.executeAbandon h
      | none => s
    else s
  | .armed => s
  | .due => s
  | .inDoubt _ => s

/-- The check of a word and its kind, on a LOCKED part (R95 to R99). -/
def State.actOn (w : SyncWord) (previous : Frame) (s : State) : State :=
  match w.kind with
  | .plain => s.checkSequence w previous
  | .nominate g => (s.checkSequence w previous).takeNominate g w
  | .cut g => s.takeCut g w
  | .abandon g => (s.checkSequence w previous).takeAbandon g

/-- FRAME_BACK where the word's frame is not ahead of the part's (R95). -/
def State.checkFrame (w : SyncWord) (s : State) : State :=
  if frameAhead w.frame s.csu.frame then s else s.desync .frameBack w []

/-- The loss timer restarts (R95, R103). -/
def State.restartLossTimer (s : State) : State := { s with csu := { s.csu with lossTimer := some s.now } }

/-- A word taken by a LOCKED slave: a frame boundary (R95). -/
def State.takeWord (w : SyncWord) (s : State) : State :=
  let opened := ((s.checkFrame w).beginFrame w.frame).restartLossTimer
  ((((opened.actOn w s.csu.frame).evaluate).retestRdy).handOver w.blackout w.frame).closeBoundary

/-! ### The master -/

/-- The nomination has waited its commit_timeout at frame `f` (R93, condition 2). -/
def State.timedOut (s : State) (f : Frame) : Bool :=
  match s.csu.nomination with
  | none => false
  | some (g, since) => (s.groups.get g).commitTimeout ≤ framesSince f since

/-- The kind of the word of boundary `f`, by the first condition of R93 that holds; `line` says whether RDY reads released. -/
def State.decision (s : State) (f : Frame) (line : Bool) : WordKind :=
  match s.csu.nomination with
  | some (g, _) =>
    if line then .cut g
    else if s.timedOut f then .abandon g
    else if s.phase = .running then .plain
    else .abandon g
  | none =>
    if s.phase = .running then
      match s.due with
      | [] => .plain
      | h :: _ => .nominate h
    else .plain

/-- The word of boundary `f` (R92). -/
def State.formWord (s : State) (f : Frame) (kind : WordKind) : SyncWord where
  kind := kind
  frame := f
  cutSequence := match kind with | .cut _ => s.csu.cutSequence + 1 | _ => s.csu.cutSequence
  lastCut := match kind with | .cut g => some (g, f) | _ => s.csu.lastCut
  blackout := s.cbi.state

/-- The nomination record and the due queue after the decision at `f` (R74, R93). -/
def State.afterDecision (f : Frame) (kind : WordKind) (s : State) : State :=
  { s with
    csu := { s.csu with
      nomination :=
        match kind with
        | .plain => s.csu.nomination
        | .nominate g => some (g, f)
        | .cut _ => none
        | .abandon _ => none }
    due :=
      match kind with
      | .nominate _ => s.due.tail
      | _ => s.due }

/-- The word goes out on FSYNC (R91, R92). -/
def State.sendWord (w : SyncWord) (s : State) : State := { s with csu := { s.csu with fsync := some w } }

/-- The ARMED groups whose FRAME trigger fires at `f`, in ascending id order (R72). -/
def State.frameTriggered (s : State) (f : Frame) : List GroupId :=
  (List.finRange 8).filter fun g => (s.groups.get g).state = .armed && (s.groups.get g).trigger = .frame f

/-- The FRAME triggers of boundary `f` fire (R72). -/
def State.fireFrameTriggers (f : Frame) (s : State) : State := s.makeAllDue (s.frameTriggered f)

/-- The master's next boundary falls at the expiry of its frame period (R91). -/
def State.nextBoundary (s : State) : Nat := s.csu.boundaryAt + s.rateNow.period

/-- The master's boundary, with RDY reading as `line` says (R91 to R93, and the word acted on by R95 to R99). The triggers not fired
before it fire after the decision (R72, entry 13). -/
def State.masterBoundary (line : Bool) (s : State) : State :=
  let f := s.csu.frame + 1
  let w := s.formWord f (s.decision f line)
  let sent := ((((s.atLeast s.nextBoundary).beginFrame f).afterDecision f w.kind).sendWord w)
  (((((sent.actOn w s.csu.frame).fireFrameTriggers f).evaluate).retestRdy).handOver w.blackout f).closeBoundary

/-- The part is a master whose frame timing runs. -/
def State.makesBoundaries (s : State) : Bool := s.clc.straps.role = .master && s.csu.timing

/-- MASTER_FRAME_BOUNDARY (R91). The RDY line reads released where this part and every other release it. -/
def execMasterFrameBoundary (othersRelease : Bool) (s : State) : Host.Outcome State Fault Refusal :=
  if s.makesBoundaries then .next (s.masterBoundary (s.csu.rdyReleased && othersRelease)) else .next s

/-- COMMIT_TIMEOUT (R93, condition 2): the master's boundary at which the nomination has waited its commit_timeout and RDY reads held;
nothing at any other boundary (entry 13). -/
def execCommitTimeout (s : State) : Host.Outcome State Fault Refusal :=
  if s.makesBoundaries && s.timedOut (s.csu.frame + 1) then .next (s.masterBoundary false) else .next s

/-- FRAME_TRIGGER (R72): the FRAME triggers of the coming boundary, taken before its decision (entry 13). -/
def execFrameTrigger (s : State) : Host.Outcome State Fault Refusal :=
  if s.makesBoundaries then .next ((s.atLeast s.nextBoundary).fireFrameTriggers (s.csu.frame + 1)) else .next s

/-! ### A slave out of lock -/

/-- The group held at a loss of sync (R103): IN_DOUBT where readiness was given, abandoned where it was not. -/
def State.holdThroughLoss (s : State) : State :=
  match s.nominatedGroup with
  | none => s
  | some g =>
    if s.csu.readinessGiven then
      match (s.groupState g).nominateFrame with
      | none => s
      | some f => (s.setGroupState g (.inDoubt f)).report (.inDoubt g f)
    else s.executeAbandon g

/-- The chain state of a slave that has lost the words: LOST, its own timing running (R102, R103). -/
def Csu.lose (c : Csu) : Csu :=
  { c with sync := .lost, lockRun := 0, lastCounted := none, lossTimer := none, timing := true }

/-- A slave enters LOST; the change is a boundary of its own timing (R103). -/
def State.loseSync (s : State) : State :=
  let f := s.csu.frame + 3
  let opened := s.beginFrame f
  let lost := { opened with csu := opened.csu.lose }.report (.syncLost f)
  ((lost.holdThroughLoss).retestRdy).closeBoundary

/-- SYNC_LOSS (R103): three periods after the last word of a LOCKED slave. -/
def execSyncLoss (s : State) : Host.Outcome State Fault Refusal :=
  match s.clc.straps.role, s.csu.sync, s.csu.lossTimer with
  | .slave, .locked, some since => .next (s.atLeast (since + 3 * s.rateNow.period)).loseSync
  | _, _, _ => .next s

/-- WORD_OVERDUE (R100, R101): more than two periods after the last word of a LOCKED slave; RDY is re-tested. -/
def execWordOverdue (s : State) : Host.Outcome State Fault Refusal :=
  match s.clc.straps.role, s.csu.sync, s.csu.lossTimer with
  | .slave, .locked, some since => .next (s.atLeast (since + 2 * s.rateNow.period + 1)).retestRdy
  | _, _, _ => .next s

/-- FREE_RUN_BOUNDARY (R102): a boundary of the own timing of a slave that is LOST or UNLOCKED. -/
def execFreeRunBoundary (s : State) : Host.Outcome State Fault Refusal :=
  if s.clc.straps.role = .slave ∧ s.csu.sync ≠ .locked ∧ s.csu.timing then
    .next (((s.atLeast s.nextBoundary).beginFrame (s.csu.frame + 1)).retestRdy).closeBoundary
  else .next s

/-- The frame and the time follow on those of the previous counted word (R104). -/
def State.followsCounted (s : State) (f : Frame) : Bool :=
  match s.csu.lastCounted with
  | none => false
  | some (previous, time) => f = previous + 1 && s.now - time < 3 * s.rateNow.period

/-- lock_run after a word is counted (R104). -/
def State.countedRun (s : State) (f : Frame) : Nat :=
  if s.csu.lockRun = 0 then 1 else if s.followsCounted f then s.csu.lockRun + 1 else 1

/-- A word is counted (R104). -/
def State.countWord (w : SyncWord) (s : State) : State :=
  { s with csu := { s.csu with lockRun := s.countedRun w.frame, lastCounted := some (w.frame, s.now) } }

/-- A group held IN_DOUBT becomes IDLE with no cut and no abandon (R105, third row). -/
def State.releaseDoubt (g : GroupId) (s : State) : State := { s.setGroupState g .idle with cvb := s.cvb.dropFor g }

/-- The comparison of R105 for a slave that was LOST. -/
def State.compareLost (w : SyncWord) (s : State) : State :=
  match s.inDoubtGroup with
  | none =>
    if w.cutSequence = s.csu.cutSequence then s else (s.desync .relockGap w []).adoptSequence w
  | some g =>
    if w.cutSequence = s.csu.cutSequence then s.executeAbandon g
    else
      match w.lastCut with
      | some (h, f) =>
        if w.cutSequence = s.csu.cutSequence + 1 ∧ h = g then s.executeCut g f
        else ((s.desync .relockGap w [g]).releaseDoubt g).adoptSequence w
      | none => ((s.desync .relockGap w [g]).releaseDoubt g).adoptSequence w

/-- The comparison of R105 by the state relocked from. -/
def State.compareAtRelock (was : SyncState) (w : SyncWord) (s : State) : State :=
  match was with
  | .lost => s.compareLost w
  | .unlocked => s.adoptSequence w
  | .locked => s

/-- readiness_given is cleared, and desync_hold where no group remains held (R105). -/
def State.endComparison (s : State) : State :=
  { s with csu := { s.csu with readinessGiven := false } }.settleHold

/-- The kind of the relocking word, after the evaluation (R106). -/
def State.actAtRelock (w : SyncWord) (s : State) : State :=
  match w.kind with
  | .plain => s
  | .nominate g => s.takeNominate g w
  | .cut _ => s
  | .abandon g => s.takeAbandon g

/-- The chain state of a slave back in lock (R105). -/
def Csu.regain (now : Nat) (c : Csu) : Csu :=
  { c with sync := .locked, lockRun := 0, lastCounted := none, lossTimer := some now, timing := false }

/-- The fourth counted word returns the slave to LOCKED, at a boundary (R105, R106). -/
def State.relock (w : SyncWord) (s : State) : State :=
  let opened := s.beginFrame w.frame
  let back := { opened with csu := opened.csu.regain s.now }.report (.syncRegained w.frame)
  let compared := (back.compareAtRelock s.csu.sync w).endComparison
  ((((compared.evaluate).actAtRelock w).retestRdy).handOver w.blackout w.frame).closeBoundary

/-- A word on a slave that is LOST or UNLOCKED, in CONFIG or RUNNING (R104). -/
def State.countTowardLock (w : SyncWord) (s : State) : State :=
  let counted := s.countWord w
  if counted.csu.lockRun < 4 then counted.handOver w.blackout w.frame else counted.relock w

/-- A good word reaches a slave (R95, R104). -/
def State.receiveWord (w : SyncWord) (s : State) : State :=
  if s.phase = .starting then { s with csu := { s.csu with lockRun := 0 } }
  else if s.csu.sync = .locked then s.takeWord w
  else s.countTowardLock w

/-- SYNC_WORD_ARRIVAL (R95, R192): a master does not read FSYNC; a word out of place did not arrive. -/
def execSyncWordArrival (bytes : List Byte) (s : State) : Host.Outcome State Fault Refusal :=
  match s.clc.straps.role with
  | .master => .next s
  | .slave =>
    match parseSyncWord bytes with
    | none => .next s
    | some w => .next (s.receiveWord w)

end Sys2Proof.Machine
end

