-- ==== Sys2Proof/Machine/Groups.lean ====
section
/-! DEFINITION. The group commands: SET_GROUP, COMMIT, CANCEL, GROUP_INFO (04). -/

namespace Sys2Proof.Machine

/-- SET_GROUP's own tests, in order, and its effect (R66). -/
def opSetGroup (group kind cue edge target timeout : Nat) : CommandOp := fun s =>
  match recordId group 8 with
  | none => s.answer .badValue .empty
  | some g =>
    if s.groupState g ≠ .idle then s.answer .groupBusy (.groupState (s.groupState g).name)
    else
      match Trigger.ofFields kind cue edge target, within 0 255 timeout with
      | some trigger, true =>
        let stored := if timeout = 0 then 1 else timeout
        State.answer
          { s with groups := s.groups.modify g fun r => { r with trigger := trigger, commitTimeout := stored } } .ok
          (.commitTimeout stored)
      | _, _ => s.answer .badValue .empty

/-- SET_GROUP. -/
def execSetGroup (unit group kind cue edge target timeout : Nat) (s : State) : Host.Outcome State Fault Refusal :=
  .next (s.hostCommand unit (.setGroup group kind cue edge target timeout)
    (opSetGroup group kind cue edge target timeout))

/-- The group becomes DUE, and its position in the queue is answered (R68, R69). -/
def State.commitDue (g : GroupId) (s : State) : State × Result :=
  (s.makeDue g).answer .ok (.committedDue (s.due.length + 1))

/-- The group becomes ARMED (R69, R70). -/
def State.commitArmed (g : GroupId) (left : Option Nat) (s : State) : State × Result :=
  (s.setGroupState g .armed).answer .ok (.committedArmed left)

/-- COMMIT of an IDLE group on the master, by its trigger (R68 to R70). -/
def State.commitIdle (g : GroupId) (s : State) : State × Result :=
  match (s.groups.get g).trigger with
  | .immediate => s.commitDue g
  | .cue c edge =>
    if edge = .level ∧ s.cbi.cue.get c = some true then s.commitDue g else s.commitArmed g none
  | .frame target =>
    if frameAhead target s.csu.frame then s.commitArmed g (some (framesSince target s.csu.frame))
    else s.answer .tooLate (.frameNow s.csu.frame)

/-- COMMIT's own tests, in order, and its effect (R68 to R70; entry 27 for IN_DOUBT). -/
def opCommit (group : Nat) : CommandOp := fun s =>
  match recordId group 8 with
  | none => s.answer .badValue .empty
  | some g =>
    if s.clc.straps.role = .slave then s.answer .notMaster .empty
    else if s.groupState g = .idle then s.commitIdle g
    else s.answer .groupBusy (.groupState (s.groupState g).name)

/-- COMMIT. -/
def execCommit (unit group : Nat) (s : State) : Host.Outcome State Fault Refusal :=
  .next (s.hostCommand unit (.commit group) (opCommit group))

/-- The group becomes IDLE and leaves the due queue from its position (R73, R75). -/
def State.withdrawGroup (g : GroupId) (s : State) : State :=
  { s.setGroupState g .idle with due := s.due.filter fun h => h ≠ g }

/-- CANCEL's own tests, in order, and its effect (R75; entry 27 for IN_DOUBT). -/
def opCancel (group : Nat) : CommandOp := fun s =>
  match recordId group 8 with
  | none => s.answer .badValue .empty
  | some g =>
    if s.clc.straps.role = .slave then s.answer .notMaster .empty
    else
      match s.groupState g with
      | .idle => s.answer .nothingPending .empty
      | .nominated f => s.answer .tooLate (.nominatedAt f)
      | .inDoubt f => s.answer .tooLate (.nominatedAt f)
      | .armed => (s.withdrawGroup g).answer .ok (.cancelled .armed)
      | .due => (s.withdrawGroup g).answer .ok (.cancelled .due)

/-- CANCEL. -/
def execCancel (unit group : Nat) (s : State) : Host.Outcome State Fault Refusal :=
  .next (s.hostCommand unit (.cancel group) (opCancel group))

/-- The number of a group's records of one state (R89). -/
def State.countRecords (s : State) (g : GroupId) (name : PlacementName) : Nat :=
  s.ptab.rows.countP fun r => r.group = some g && r.name = name

/-- The number of a group's LIVE records with a pending amendment of one kind (R89). -/
def State.countPending (s : State) (g : GroupId) (kind : PendingKind) : Nat :=
  s.ptab.rows.countP fun r =>
    match r with
    | .live h _ _ _ (some p) => h = g && p.kind = kind
    | _ => false

/-- The surfaces a group needs that are not READY, each once (R89). -/
def State.surfacesNotReady (s : State) (g : GroupId) : List SurfaceId :=
  ((s.neededSurfaces g).filter fun i => !(s.surface i).isReady).dedup

/-- The frames an ARMED group with a FRAME trigger has left (R89). -/
def State.framesRemaining (s : State) (g : GroupId) : Option Nat :=
  match (s.groups.get g).state, (s.groups.get g).trigger with
  | .armed, .frame target => some (framesSince target s.csu.frame)
  | _, _ => none

/-- One group record as GROUP_INFO returns it (R89). -/
def State.groupReport (s : State) (g : GroupId) : GroupReport where
  state := (s.groupState g).name
  trigger := (s.groups.get g).trigger
  commitTimeout := (s.groups.get g).commitTimeout
  nominateFrame := (s.groupState g).nominateFrame
  lastCutFrame := (s.groups.get g).lastCutFrame
  cuts := (s.groups.get g).cuts
  abandons := (s.groups.get g).abandons
  position :=
    if s.clc.straps.role = .master ∧ g ∈ s.due then some (s.due.idxOf g + 1) else none
  dueQueue := if s.clc.straps.role = .master then some s.due else none
  framesRemaining := if s.clc.straps.role = .master then s.framesRemaining g else none
  staged := s.countRecords g .staged
  live := s.countRecords g .live
  fading := s.countRecords g .fading
  pendingReplace := s.countPending g .replace
  pendingRetire := s.countPending g .retire
  surfacesNotReady := (s.surfacesNotReady g).length
  cutSequence := s.csu.cutSequence

/-- GROUP_INFO's own test and its answer (R89). -/
def opGroupInfo (group : Nat) : CommandOp := fun s =>
  match recordId group 8 with
  | none => s.answer .badValue .empty
  | some g => s.answer .ok (.group (s.groupReport g))

/-- GROUP_INFO. -/
def execGroupInfo (unit group : Nat) (s : State) : Host.Outcome State Fault Refusal :=
  .next (s.hostCommand unit (.groupInfo group) (opGroupInfo group))

end Sys2Proof.Machine
end

