-- ==== Sys2Proof/Machine/Records.lean ====
section
/-! DEFINITION. The placement commands: PLACE, AMEND, RETIRE, WITHDRAW, LOOKUP, FIND (03, sections 3.2 to 3.6 and 3.8). -/

namespace Sys2Proof.Machine

/-- The group is NOMINATED or IN_DOUBT in this part, so its records are locked (R44). -/
def State.locks (s : State) (g : GroupId) : Bool := (s.groupState g).holdsRecords

/-- Every surface of a slot list is unnamed, in order (R51). -/
def State.unnameAll (is : List SurfaceId) (s : State) : State := is.foldl (fun s i => s.unnameSurface i) s

/-- PLACE's own tests, in order, and its effect (R46). -/
def opPlace (id group : Nat) (values : RawValues) : CommandOp := fun s =>
  match recordId id 128, recordId group 8 with
  | some i, some g =>
    match (s.ptab.get i).group with
    | some h => s.answer .idInUse (.recordInUse (s.ptab.get i).name h)
    | none =>
      if s.locks g then s.answer .groupLocked .empty
      else
        match s.checkValues values with
        | .error status => s.answer status .empty
        | .ok v =>
          ((s.setPlacement i (.staged g v)).nameSurface v.surface).answer .ok (.placed v.stepX v.stepY v.endAge)
  | _, _ => s.answer .badValue .empty

/-- PLACE. -/
def execPlace (unit id group : Nat) (values : RawValues) (s : State) : Host.Outcome State Fault Refusal :=
  .next (s.hostCommand unit (.place id group values) (opPlace id group values))

/-- AMEND on a record that is not locked, with values taken: STAGED values replaced (R47), or a pending REPLACE set (R48). -/
def State.amendRecord (i : PlacementId) (v : Values) (restart : Bool) (s : State) : State × Result :=
  match s.ptab.get i with
  | .staged g old =>
    (((s.setPlacement i (.staged g v)).unnameSurface old.surface).nameSurface v.surface).answer .ok
      (.placed v.stepX v.stepY v.endAge)
  | .live g old since valuesSince p =>
    (((s.setPlacement i (.live g old since valuesSince (some (.replace v restart)))).unnameAll
      (Pending.surfaces p)).nameSurface v.surface).answer .ok (.amended v.stepX v.stepY v.endAge (p.map Pending.kind))
  | .fading _ _ _ _ start => s.answer .retiring (.fadeStart start)
  | .free => s.answer .noSuch .empty

/-- AMEND's own tests, in order, and its effect (R47, R48). -/
def opAmend (id : Nat) (values : RawValues) (restart : Nat) : CommandOp := fun s =>
  match recordId id 128, markOf restart with
  | some i, some mark =>
    match (s.ptab.get i).group with
    | none => s.answer .noSuch .empty
    | some g =>
      if s.locks g then s.answer .groupLocked .empty
      else
        match s.ptab.get i with
        | .fading _ _ _ _ start => s.answer .retiring (.fadeStart start)
        | _ =>
          match s.checkValues values with
          | .error status => s.answer status .empty
          | .ok v => s.amendRecord i v mark
  | _, _ => s.answer .badValue .empty

/-- AMEND. -/
def execAmend (unit id : Nat) (values : RawValues) (restart : Nat) (s : State) : Host.Outcome State Fault Refusal :=
  .next (s.hostCommand unit (.amend id values restart) (opAmend id values restart))

/-- RETIRE on a record that is not locked (R49). -/
def State.retireRecord (i : PlacementId) (s : State) : State × Result :=
  match s.ptab.get i with
  | .free => s.answer .noSuch .empty
  | .staged _ v => ((s.setPlacement i .free).unnameSurface v.surface).answer .ok .empty
  | .live g v since valuesSince p =>
    ((s.setPlacement i (.live g v since valuesSince (some .retire))).unnameAll (Pending.surfaces p)).answer .ok .empty
  | .fading _ _ _ _ start => s.answer .retiring (.fadeStart start)

/-- The three tests of R49, then what acts on the record. -/
def onUnlockedRecord (id : Nat) (act : PlacementId → CommandOp) : CommandOp := fun s =>
  match recordId id 128 with
  | none => s.answer .badValue .empty
  | some i =>
    match (s.ptab.get i).group with
    | none => s.answer .noSuch .empty
    | some g => if s.locks g then s.answer .groupLocked .empty else act i s

/-- RETIRE's own tests, in order, and its effect (R49). -/
def opRetire (id : Nat) : CommandOp := onUnlockedRecord id State.retireRecord

/-- RETIRE. -/
def execRetire (unit id : Nat) (s : State) : Host.Outcome State Fault Refusal :=
  .next (s.hostCommand unit (.retire id) (opRetire id))

/-- WITHDRAW on a record that is not locked (R50). -/
def State.withdrawRecord (i : PlacementId) (s : State) : State × Result :=
  match s.ptab.get i with
  | .free => s.answer .noSuch .empty
  | .staged _ v => ((s.setPlacement i .free).unnameSurface v.surface).answer .ok .empty
  | .live g v since valuesSince (some p) =>
    ((s.setPlacement i (.live g v since valuesSince none)).unnameAll (Pending.surfaces (some p))).answer .ok
      (.withdrawn p.kind)
  | .live _ _ _ _ none => s.answer .nothingPending .empty
  | .fading _ _ _ _ _ => s.answer .nothingPending .empty

/-- WITHDRAW's own tests, in order, and its effect (R50). -/
def opWithdraw (id : Nat) : CommandOp := onUnlockedRecord id State.withdrawRecord

/-- WITHDRAW. -/
def execWithdraw (unit id : Nat) (s : State) : Host.Outcome State Fault Refusal :=
  .next (s.hostCommand unit (.withdraw id) (opWithdraw id))

/-- live_since, in the states that hold it (R38). -/
def Placement.liveSince : Placement → Option Frame
  | .live _ _ since _ _ => some since
  | .fading _ _ since _ _ => some since
  | _ => none

/-- values_since, in the states that hold it (R38). -/
def Placement.valuesSince : Placement → Option Frame
  | .live _ _ _ since _ => some since
  | .fading _ _ _ since _ => some since
  | _ => none

/-- fade_start, in FADING (R38). -/
def Placement.fadeStart : Placement → Option Frame
  | .fading _ _ _ _ start => some start
  | _ => none

/-- The pending amendment, in LIVE (R41). -/
def Placement.pending : Placement → Option Pending
  | .live _ _ _ _ p => p
  | _ => none

/-- What LOOKUP says of a pending REPLACE (R61). -/
def replaceReport : Option Pending → Option (SurfaceId × Rect × Bool)
  | some (.replace v restart) => some (v.surface, v.destination, restart)
  | _ => none

/-- The age, cell and weights of a LIVE or FADING record at the current frame number (R61, R130, R131). -/
def State.scheduleOf (s : State) (r : Placement) : Option ScheduleReport :=
  r.shown.map fun v => ⟨r.age s.csu.frame,
    cellAt v (((s.surface v.surface).desc.map (·.cells)).getD 1) (r.age s.csu.frame),
    r.fadeWeight s.csu.frame, effectiveWeight v (r.fadeWeight s.csu.frame)⟩

/-- The tiles whose active lists hold a record (R61). -/
def State.coveredBy (s : State) (i : PlacementId) : Table Bool 16 := s.cvb.active.mapIdx fun _ c => c.ids.contains i

/-- One record as LOOKUP returns it (R61). -/
def State.lookupOf (s : State) (i : PlacementId) : Payload :=
  match (s.ptab.get i).group, (s.ptab.get i).values with
  | some g, some v =>
    let r := s.ptab.get i
    .lookup ⟨r.name, g, v, r.liveSince, r.valuesSince, r.fadeStart, r.pending.map Pending.kind, replaceReport r.pending,
      s.scheduleOf r, s.coveredBy i⟩
  | _, _ => .lookupFree

/-- LOOKUP's own test and its answer (R61). -/
def opLookup (id : Nat) : CommandOp := fun s =>
  match recordId id 128 with
  | none => s.answer .badValue .empty
  | some i => s.answer .ok (s.lookupOf i)

/-- LOOKUP. -/
def execLookup (unit id : Nat) (s : State) : Host.Outcome State Fault Refusal :=
  .next (s.hostCommand unit (.lookup id) (opLookup id))

/-- The shown mark of FIND: a tile's held visible rectangle holds the point and its active list the id (R62). -/
def State.shownAt (s : State) (x y : Nat) (i : PlacementId) : Bool :=
  (List.finRange 16).any fun t =>
    (match s.held.rects.get t with
     | none => false
     | some r => r.contains x y) && (s.cvb.active.get t).ids.contains i

/-- The LIVE and FADING records whose destination holds a point, topmost first (R62). -/
def State.recordsAt (s : State) (x y : Nat) : List Member :=
  (inCompositionOrder ((liveSet s.ptab).filter fun m => m.2.destination.contains x y)).reverse

/-- One entry of FIND's answer (R62). -/
def State.findEntry (s : State) (x y : Nat) (m : Member) : FindEntry :=
  ⟨m.1, m.2.layer, (s.ptab.get m.1).name, s.shownAt x y m.1⟩

/-- FIND's own test and its answer (R62). -/
def opFind (x y : Nat) : CommandOp := fun s =>
  if within 0 16383 x && within 0 16383 y then
    s.answer .ok (.found (((s.recordsAt x y).take 16).map (s.findEntry x y)) (decide (16 < (s.recordsAt x y).length)))
  else s.answer .badValue .empty

/-- FIND. -/
def execFind (unit x y : Nat) (s : State) : Host.Outcome State Fault Refusal :=
  .next (s.hostCommand unit (.find x y) (opFind x y))

end Sys2Proof.Machine
end

