-- ==== Sys2Proof/Machine/Inputs.lean ====
section
/-! DEFINITION. The cue and blackout inputs: settled changes, SET_BLACKOUT, CLEAR_BLACKOUT, and what is sampled at a reset (09). -/

namespace Sys2Proof.Machine

/-- How long an input must hold its new level, in µs (R168). -/
def settleMicros : Nat := 2000

/-- The same in clock ticks. -/
def settleTicks : Nat := settleMicros * Config.ticksPerMicro

/-- The blackout state of a mode, an input level and a latch (R171). -/
def blackoutOf : BlackoutMode → Bool → Bool → Bool
  | .off, _, _ => false
  | .level, input, _ => input
  | .latch, _, latch => latch

/-- The blackout state recomputed (R171). -/
def Cbi.recomputed (c : Cbi) : Cbi := { c with state := blackoutOf c.mode c.input c.latch }

/-- A settled change of the blackout input (R171). -/
def Cbi.settleBlackout (level : Bool) (c : Cbi) : Cbi :=
  { c with
    input := level
    latch := match c.mode with | .latch => c.latch || level | .off => false | .level => false }.recomputed

/-- The blackout detector sampled at a reset at the time `now`, the cue detectors cleared (R167, R168, R171). -/
def Cbi.sampledAtReset (pin : Bool) (now : Nat) (c : Cbi) : Cbi :=
  { c with
    cue := Table.replicate 4 none
    blackoutSampledAt := now
    input := pin
    latch := match c.mode with | .latch => pin | .off => false | .level => false }.recomputed

/-- The cue detectors sampled at the end of STARTING, at the time `now` (R168, R169). -/
def Cbi.sampleCues (pins : Table Bool 4) (now : Nat) (c : Cbi) : Cbi :=
  { c with cue := Table.ofFn fun i => some (pins.get i ^^ c.inversion.get i), cueSampledAt := now }

/-- The direction of a change to `high`. -/
def directionOf (high : Bool) : Direction := if high then .rising else .falling

/-- The edges that fire a group (R71). -/
def Edge.firedBy : Edge → Direction → Bool
  | .rising, d => d = .rising
  | .falling, d => d = .falling
  | .any, _ => true
  | .level, d => d = .rising

/-- The group is ARMED on this cue and the edge fires it (R71). -/
def GroupRec.watches (cue : CueId) (d : Direction) (r : GroupRec) : Bool :=
  match r.state, r.trigger with
  | .armed, .cue c edge => c = cue && edge.firedBy d
  | _, _ => false

/-- The groups a cue report fires, in ascending id order; none on a slave (R71). -/
def State.cueTriggered (s : State) (cue : CueId) (d : Direction) : List GroupId :=
  if s.clc.straps.role = .master then (List.finRange 8).filter fun g => (s.groups.get g).watches cue d else []

/-- A settled change of a cue to `level` after inversion: the level, the report, the groups fired (R169, R71). -/
def State.takeCueEdge (cue : CueId) (level : Bool) (s : State) : State :=
  ({ s with cbi := { s.cbi with cue := s.cbi.cue.set cue (some level) } }.makeAllDue
    (s.cueTriggered cue (directionOf level))).report (.cue cue (directionOf level))

/-- The level of a cue's pin. -/
def State.setCuePin (cue : CueId) (level : Bool) (s : State) : State :=
  { s with pins := { s.pins with cue := s.pins.cue.set cue level } }

/-- CUE_EDGE (R168, R169): the pin stands at `level`; a change that has held for 2 ms and differs from the settled level is an edge.
The 2 ms are timed from the sample at the earliest, so the clock then stands at least 2 ms past it (entry 29). In STARTING the
detector is absent and the change is lost. -/
def execCueEdge (cue : CueId) (level : Bool) (heldMicros : Nat) (s : State) : Host.Outcome State Fault Refusal :=
  let moved := s.setCuePin cue level
  let seen := level ^^ s.cbi.inversion.get cue
  match s.cbi.cue.get cue with
  | none => .next moved
  | some settled =>
    if settleMicros ≤ heldMicros ∧ seen ≠ settled then
      .next ((moved.atLeast (s.cbi.cueSampledAt + settleTicks)).takeCueEdge cue seen)
    else .next moved

/-- BLACKOUT_INPUT_CHANGE (R168, R171): the pin stands at `level`; a change that has held for 2 ms and differs from the settled
level is taken, at the earliest 2 ms after the sample (entry 29). -/
def execBlackoutInputChange (level : Bool) (heldMicros : Nat) (s : State) : Host.Outcome State Fault Refusal :=
  let moved := { s with pins := { s.pins with blackout := level } }
  if settleMicros ≤ heldMicros ∧ level ≠ s.cbi.input then
    .next { moved.atLeast (s.cbi.blackoutSampledAt + settleTicks) with cbi := s.cbi.settleBlackout level }
  else .next moved

/-- A cue's level where its inversion changes from `old` to `new` (R170). -/
def reversedWhere (old new : Bool) (level : Option Bool) : Option Bool :=
  level.map fun l => if old = new then l else !l

/-- The inversions written, and the levels of the cues whose inversion changes reversed (R170). -/
def Cbi.invert (marks : Option (Table Bool 4)) (c : Cbi) : Cbi :=
  match marks with
  | none => c
  | some m =>
    { c with
      cue := c.cue.mapIdx fun i l => reversedWhere (c.inversion.get i) (m.get i) l
      inversion := m }

/-- The latch after a write of the mode (R172). -/
def Cbi.latchAfter (mode : BlackoutMode) (c : Cbi) : Bool :=
  match mode with
  | .off => false
  | .level => false
  | .latch => if c.mode = .latch then c.latch else c.input

/-- SET_BLACKOUT that passes: the mode, the inversions, the latch and the state (R172). -/
def Cbi.setMode (mode : BlackoutMode) (marks : Option (Table Bool 4)) (c : Cbi) : Cbi :=
  { c.invert marks with latch := c.latchAfter mode, mode := mode }.recomputed

/-- The inversion marks carried, where every one of them is off or on; none where one is neither. -/
def inversionMarks : Option (Table Nat 4) → Option (Option (Table Bool 4))
  | none => some none
  | some t => (marksOf t).map some

/-- SET_BLACKOUT's own tests and its effect (R172). -/
def opSetBlackout (mode : Nat) (marks : Option (Table Nat 4)) : CommandOp := fun s =>
  match BlackoutMode.ofCode mode, inversionMarks marks with
  | some m, some inv =>
    let c := s.cbi.setMode m inv
    State.answer { s with cbi := c } .ok (.blackout c.mode c.latch c.state)
  | _, _ => s.answer .badValue .empty

/-- SET_BLACKOUT. -/
def execSetBlackout (unit mode : Nat) (marks : Option (Table Nat 4)) (s : State) : Host.Outcome State Fault Refusal :=
  .next (s.hostCommand unit (.setBlackout mode marks) (opSetBlackout mode marks))

/-- CLEAR_BLACKOUT's own tests, in order, and its effect (R173). -/
def opClearBlackout : CommandOp := fun s =>
  if s.cbi.latch = false then s.answer .nothingPending .empty
  else if s.cbi.input then s.answer .stillAsserted .empty
  else State.answer { s with cbi := { s.cbi with latch := false }.recomputed } .ok .empty

/-- CLEAR_BLACKOUT. -/
def execClearBlackout (unit : Nat) (s : State) : Host.Outcome State Fault Refusal :=
  .next (s.hostCommand unit .clearBlackout opClearBlackout)

end Sys2Proof.Machine
end

