-- ==== Sys2Proof/Machine/Surfaces.lean ====
section
/-! DEFINITION. The surface commands: DEFINE_SURFACE, UPLOAD, DROP_SURFACE, SURFACE_INFO; and SET_PACING of the frame store
controller (02; 07, R144). -/

namespace Sys2Proof.Machine

/-- The reference_count of a record that is LOADING or READY; 0 for an EMPTY one (R23, test 2). -/
def SurfaceRec.named (r : SurfaceRec) : Nat :=
  match r.state with
  | .empty => 0
  | .loading _ _ => r.refs
  | .ready _ => r.refs

/-- A record of another id shares a page with a description (R23, test 5). -/
def sharesWith (i : SurfaceId) (d : Desc) (e : SurfaceId × SurfaceRec) : Bool :=
  e.1 ≠ i &&
    match e.2.state.desc with
    | none => false
    | some other => sharePages d other

/-- The lowest id among the other records whose pages a description shares (R23, test 5). -/
def State.overlapping (s : State) (i : SurfaceId) (d : Desc) : Option SurfaceId :=
  (s.sdir.entries.find? (sharesWith i d)).map Prod.fst

/-- The pages of a description end inside the strapped store (R23, test 4). -/
def State.fitsStore (s : State) (d : Desc) : Bool := d.basePage + d.pageCount ≤ storePages s.clc.straps.store

/-- DEFINE_SURFACE's own tests, in order, and its effect (R23, R24). -/
def opDefineSurface (id format width height cells basePage : Nat) (key : Option Nat) : CommandOp := fun s =>
  match recordId id 256 with
  | none => s.answer .badValue .empty
  | some i =>
    if 0 < (s.sdir.get i).named then s.answer .inUse (.references (s.sdir.get i).named)
    else
      match Desc.ofFields format width height cells basePage key with
      | none => s.answer .badValue .empty
      | some d =>
        if s.fitsStore d then
          match s.overlapping i d with
          | some other => s.answer .overlap (.overlapping other)
          | none => (s.setSurface i (.loading d 0)).answer .ok (.defined d.pageCount d.totalBytes)
        else s.answer .badValue .empty

/-- DEFINE_SURFACE. -/
def execDefineSurface (unit id format width height cells basePage : Nat) (key : Option Nat) (s : State) :
    Host.Outcome State Fault Refusal :=
  .next (s.hostCommand unit (.defineSurface id format width height cells basePage key)
    (opDefineSurface id format width height cells basePage key))

/-- The upload write that UPLOAD hands over: the bytes that fit, from the surface's next byte on (R27). -/
def uploadOf (d : Desc) (loaded : Nat) (chunk : List Byte) : UploadWrite :=
  ⟨d.basePage * pageBytes + loaded, chunk.take (d.totalBytes - loaded), 0⟩

/-- An upload write is handed over, and the store granted to it where the grant rule allows (R27, R140). -/
def State.handOverUpload (u : UploadWrite) (s : State) : State :=
  { s with fsc := { s.fsc with upload := some u } }.grant

/-- UPLOAD's own tests, in order, and its effect (R26, R27). -/
def opUpload (id offset : Nat) (chunk : List Byte) : CommandOp := fun s =>
  match recordId id 256, within 1 4096 chunk.length with
  | some i, true =>
    match s.surface i with
    | .empty => s.answer .notLoading (.loadState .empty)
    | .ready _ => s.answer .notLoading (.loadState .ready)
    | .loading d loaded =>
      if offset = loaded then
        (s.handOverUpload (uploadOf d loaded chunk), .begins (.upload i (uploadOf d loaded chunk).data.length))
      else s.answer .outOfOrder (.loadedSoFar loaded)
  | _, _ => s.answer .badValue .empty

/-- UPLOAD. -/
def execUpload (unit id offset : Nat) (chunk : List Byte) (s : State) : Host.Outcome State Fault Refusal :=
  .next (s.hostCommand unit (.upload id offset chunk) (opUpload id offset chunk))

/-- DROP_SURFACE's own tests, in order, and its effect (R30). -/
def opDropSurface (id : Nat) : CommandOp := fun s =>
  match recordId id 256 with
  | none => s.answer .badValue .empty
  | some i =>
    if s.surface i = .empty then s.answer .noSuch .empty
    else if 0 < (s.sdir.get i).refs then s.answer .inUse (.references (s.sdir.get i).refs)
    else (s.setSurface i .empty).answer .ok .empty

/-- DROP_SURFACE. -/
def execDropSurface (unit id : Nat) (s : State) : Host.Outcome State Fault Refusal :=
  .next (s.hostCommand unit (.dropSurface id) (opDropSurface id))

/-- One surface record as SURFACE_INFO returns it (R34). -/
def SurfaceRec.report (r : SurfaceRec) : SurfaceReport where
  state := r.state.name
  desc := r.state.desc
  cellHeight := r.state.desc.map Desc.cellHeight
  pageCount := r.state.desc.map Desc.pageCount
  totalBytes := r.state.desc.map Desc.totalBytes
  loaded := r.state.desc.map fun _ => r.state.loadedCount
  refs := r.refs

/-- SURFACE_INFO's own test and its answer (R34). -/
def opSurfaceInfo (id : Nat) : CommandOp := fun s =>
  match recordId id 256 with
  | none => s.answer .badValue .empty
  | some i => s.answer .ok (.surface (s.sdir.get i).report)

/-- SURFACE_INFO. -/
def execSurfaceInfo (unit id : Nat) (s : State) : Host.Outcome State Fault Refusal :=
  .next (s.hostCommand unit (.surfaceInfo id) (opSurfaceInfo id))

/-- SET_PACING's own test and its effect (R144). -/
def opSetPacing (code : Nat) : CommandOp := fun s =>
  match recordId code 4 with
  | none => s.answer .badValue .empty
  | some c => State.answer { s with fsc := { s.fsc with pacing := c } } .ok (.pacing c)

/-- SET_PACING. -/
def execSetPacing (unit code : Nat) (s : State) : Host.Outcome State Fault Refusal :=
  .next (s.hostCommand unit (.setPacing code) (opSetPacing code))

end Sys2Proof.Machine
end

