-- ==== Sys2Proof/Machine/Tiles.lean ====
section
/-! DEFINITION. The commands on tiles and geometry: SET_GEOMETRY, SET_TILE, START and its end, SET_BACKGROUND, TILE_POWER, TILE_MODE,
TILE_INFO (01; 06, R115 and R126; 08; 10, R183). -/

namespace Sys2Proof.Machine

/-- The ranges of R2. -/
def geometryInRange (panelW panelH gapX gapY : Nat) : Bool :=
  within 16 4096 panelW && within 16 4096 panelH && within 0 1023 gapX && within 0 1023 gapY

/-- SET_GEOMETRY's own test and its effect (R3). -/
def opSetGeometry (panelW panelH gapX gapY : Nat) : CommandOp := fun s =>
  if geometryInRange panelW panelH gapX gapY then
    State.answer { s with geo := ⟨panelW, panelH, gapX, gapY⟩ } .ok .empty
  else s.answer .badValue .empty

/-- SET_GEOMETRY. -/
def execSetGeometry (unit panelW panelH gapX gapY : Nat) (s : State) : Host.Outcome State Fault Refusal :=
  .next (s.hostCommand unit (.setGeometry panelW panelH gapX gapY) (opSetGeometry panelW panelH gapX gapY))

/-- A trim in −8 to +7 (R4). -/
def trimInRange (n : Int) : Bool := -8 ≤ n && n ≤ 7

/-- SET_TILE's own tests, in order, and its effect; any placed value but 0 is yes (R5; 10, section 10.6). -/
def opSetTile (tile placed column row : Nat) (trimX trimY : Int) : CommandOp := fun s =>
  match recordId tile 16 with
  | none => s.answer .badValue .empty
  | some t =>
    if within 0 31 column && within 0 31 row && trimInRange trimX && trimInRange trimY then
      State.answer
        { s with tiles := s.tiles.modify t fun r =>
          { r with placed := placed ≠ 0, column := column, row := row, trimX := trimX, trimY := trimY } } .ok .empty
    else s.answer .badValue .empty

/-- SET_TILE. -/
def execSetTile (unit tile placed column row : Nat) (trimX trimY : Int) (s : State) :
    Host.Outcome State Fault Refusal :=
  .next (s.hostCommand unit (.setTile tile placed column row trimX trimY)
    (opSetTile tile placed column row trimX trimY))

/-! ### START -/

/-- ox of a tile record under a geometry, with its sign (R7). -/
def originX (g : Geometry) (r : TileRec) : Int := (r.column * (g.panelW + g.gapX) : Nat) + r.trimX

/-- oy of a tile record under a geometry, with its sign (R7). -/
def originY (g : Geometry) (r : TileRec) : Int := (r.row * (g.panelH + g.gapY) : Nat) + r.trimY

/-- The length of a side of the wall (R1). -/
def wallSide : Nat := 16384

/-- A window of this origin and size lies inside the wall in one direction (R9). -/
def spanFits (origin : Int) (size : Nat) : Bool := 0 ≤ origin && origin + size ≤ wallSide

/-- Another placed tile holds the same column and row (R9). -/
def State.duplicated (s : State) (t : TileId) : Bool :=
  (List.finRange 16).any fun u =>
    u ≠ t && (s.tiles.get u).placed && (s.tiles.get u).column = (s.tiles.get t).column
      && (s.tiles.get u).row = (s.tiles.get t).row

/-- The first failing test of R9 for a tile. -/
def State.geometryReason (s : State) (t : TileId) : Option GeometryReason :=
  if (s.tiles.get t).placed = false then none
  else if spanFits (originX s.geo (s.tiles.get t)) s.geo.panelW = false then some .spanX
  else if spanFits (originY s.geo (s.tiles.get t)) s.geo.panelH = false then some .spanY
  else if s.duplicated t then some .duplicate
  else none

/-- The lowest offending tile and its reason (R9). -/
def State.geometryFault (s : State) : Option (TileId × GeometryReason) :=
  (List.finRange 16).findSome? fun t => (s.geometryReason t).map fun r => (t, r)

/-- A tile's visible rectangle under a geometry: absent where it is not placed (R7, R8). -/
def visibleRect (g : Geometry) (r : TileRec) : Option Rect :=
  if r.placed then some ⟨(originX g r).toNat, (originY g r).toNat, g.panelW, g.panelH⟩ else none

/-- The held geometry a START takes (R8). -/
def State.geometryNow (s : State) : HeldGeometry := ⟨s.geo, s.tiles.mapIdx fun _ r => visibleRect s.geo r⟩

/-- The coverage builder at a START: active lists from the live set, a preparation held begun again (R115). -/
def State.listsAtStart (s : State) : Cvb :=
  { s.cvb with active := buildActive s.geometryNow s.ptab }.restart s.geometryNow

/-- A START that passes its tests, up to its completion (R183). -/
def State.beginStart (s : State) : State :=
  (({ s with held := s.geometryNow }).activate s.listsAtStart).retestRdy

/-- START's own tests and its effect; the result comes with START_COMPLETE (R9, R183; entry 24). -/
def opStart : CommandOp := fun s =>
  match s.geometryFault with
  | some (t, reason) => s.answer .geometry (.geometryFault t reason)
  | none => (s.beginStart, .begins .start)

/-- START. -/
def execStart (unit : Nat) (s : State) : Host.Outcome State Fault Refusal := .next (s.hostCommand unit .start opStart)

/-- The part enters another phase, and RDY is re-tested (R101, R182). -/
def State.enterPhase (p : Phase) (s : State) : State := State.retestRdy { s with phase := p }

/-- START_COMPLETE (R183): the phase becomes RUNNING and the result returns; nothing where no START is executing (entry 6). -/
def execStartComplete (s : State) : Host.Outcome State Fault Refusal :=
  match s.clc.executing.map Executing.job with
  | some .start => .next ((s.enterPhase .running).returnResult .ok .empty)
  | some (.upload _ _) => .next s
  | none => .next s

/-! ### What tiles are sent -/

/-- SET_BACKGROUND's own test and its effect (R126). -/
def opSetBackground (colour : Rgb) : CommandOp := fun s =>
  if channelsInRange colour then State.answer { s with bg := colour } .ok .empty else s.answer .badValue .empty

/-- SET_BACKGROUND. -/
def execSetBackground (unit : Nat) (colour : Rgb) (s : State) : Host.Outcome State Fault Refusal :=
  .next (s.hostCommand unit (.setBackground colour) (opSetBackground colour))

/-- A port under the switch of TILE_POWER (R152). -/
def Port.switch (on : Bool) (now milliseconds : Nat) (p : Port) : Port × List PortState :=
  match p.state, on with
  | .off, true => (p.enter (warmUpFrom now milliseconds), [warmUpFrom now milliseconds])
  | .off, false => (p, [])
  | .powering _, true => (p, [])
  | .powering _, false => (p.enter .off, [.off])
  | .training _ _, true => (p, [])
  | .training _ _, false => (p.enter (.draining .beforeBlack false), [.draining .beforeBlack false])
  | .up, true => (p, [])
  | .up, false => (p.enter (.draining .beforeBlack false), [.draining .beforeBlack false])
  | .lost, true => (p, [])
  | .lost, false => (p.enter (.draining .beforeBlack false), [.draining .beforeBlack false])
  | .draining stage _, restart => (p.enter (.draining stage restart), [])
  | .fault, true => (p.enter (warmUpFrom now milliseconds), [warmUpFrom now milliseconds])
  | .fault, false => (p.enter .off, [.off])

/-- A carried warm_up is stored in the selected tile records (R150, R152). -/
def State.storeWarmUp (ts : List TileId) (warmUp : Option Nat) (s : State) : State :=
  match warmUp with
  | none => s
  | some n =>
    { s with tiles := s.tiles.mapIdx fun t r => if t ∈ ts then { r with warmUp := warmUpStored n } else r }

/-- What the switch makes of port `t`: nothing where the tile is not selected. -/
def State.switchStep (ts : List TileId) (on : Bool) (s : State) (t : TileId) : Port × List PortState :=
  if t ∈ ts then (s.ports.get t).switch on s.now (s.tiles.get t).warmUp else (s.ports.get t, [])

/-- The switch acts on the selected ports (R152). -/
def State.switchPorts (ts : List TileId) (on : Bool) (s : State) : State :=
  { s with ports := Table.ofFn fun t => (s.switchStep ts on t).1 }.reportAll
    (s.tileReports fun t => changesThrough t s.csu.frame (s.ports.get t).state (s.switchStep ts on t).2)

/-- The states of the selected ports, as TILE_POWER answers them (R152). -/
def State.portNames (s : State) (ts : List TileId) : List (TileId × PortName) :=
  ts.map fun t => (t, (s.ports.get t).state.name)

/-- TILE_POWER's own test and its effect (R152). -/
def opTilePower (selector switch : Nat) (warmUp : Option Nat) : CommandOp := fun s =>
  match selectedTiles selector, markOf switch with
  | some ts, some on =>
    let after := (s.storeWarmUp ts warmUp).switchPorts ts on
    after.answer .ok (.portStates (after.portNames ts))
  | _, _ => s.answer .badValue .empty

/-- TILE_POWER. -/
def execTilePower (unit selector switch : Nat) (warmUp : Option Nat) (s : State) : Host.Outcome State Fault Refusal :=
  .next (s.hostCommand unit (.tilePower selector switch warmUp) (opTilePower selector switch warmUp))

/-- A tile record written by TILE_MODE (R150, R163). -/
def TileRec.withMode (mode : Mode) (flat : Option Rgb) (level : Option Nat) (r : TileRec) : TileRec :=
  { r with
    mode := mode
    flat := flat.getD r.flat
    level := (level.map levelStored).getD r.level }

/-- The selected tile records written by TILE_MODE. -/
def State.writeModes (ts : List TileId) (mode : Mode) (flat : Option Rgb) (level : Option Nat) (s : State) : State :=
  { s with tiles := s.tiles.mapIdx fun t r => if t ∈ ts then r.withMode mode flat level else r }

/-- The levels of the selected tiles, as TILE_MODE answers them (R163, entry 21). -/
def State.levelsOf (s : State) (ts : List TileId) : List (TileId × Nat) := ts.map fun t => (t, (s.tiles.get t).level)

/-- A carried colour has every channel in range; none carried is in range (R163, test 2). -/
def flatInRange : Option Rgb → Bool
  | none => true
  | some c => channelsInRange c

/-- TILE_MODE's own tests, in order, and its effect (R163). -/
def opTileMode (selector mode : Nat) (flat : Option Rgb) (level : Option Nat) : CommandOp := fun s =>
  match selectedTiles selector, Mode.ofCode mode with
  | some ts, some m =>
    if flatInRange flat then
      let after := s.writeModes ts m flat level
      after.answer .ok (.levels (after.levelsOf ts))
    else s.answer .badValue .empty
  | _, _ => s.answer .badValue .empty

/-- TILE_MODE. -/
def execTileMode (unit selector mode : Nat) (flat : Option Rgb) (level : Option Nat) (s : State) :
    Host.Outcome State Fault Refusal :=
  .next (s.hostCommand unit (.tileMode selector mode flat level) (opTileMode selector mode flat level))

/-- warm_up_left in whole milliseconds, in POWERING (R151, entry 31). -/
def PortState.warmUpLeft (now : Nat) : PortState → Option Nat
  | .powering endsAt => some ((endsAt - now) / Config.ticksPerMilli)
  | _ => none

/-- attempt_frames, in TRAINING. -/
def PortState.attemptFrames : PortState → Option Nat
  | .training _ n => some n
  | _ => none

/-- drain_stage, in DRAINING. -/
def PortState.drainStage : PortState → Option DrainStage
  | .draining stage _ => some stage
  | _ => none

/-- A preparation is COMPLETE. -/
def Cvb.isComplete (c : Cvb) : Bool :=
  match c.prep with
  | .complete _ => true
  | .inFlight _ => false
  | .none => false

/-- One tile as TILE_INFO returns it (R164, R17, R124, R146). -/
def State.tileReport (s : State) (t : TileId) : TileReport where
  tile := s.tiles.get t
  setting := s.geo
  held := s.held.rects.get t
  portState := (s.ports.get t).state.name
  rail := (s.ports.get t).state.rail
  attempt := (s.ports.get t).state.attempt
  attemptFrames := (s.ports.get t).state.attemptFrames
  warmUpLeft := (s.ports.get t).state.warmUpLeft s.now
  missed := (s.ports.get t).missed
  drainStage := (s.ports.get t).state.drainStage
  restartAfterDrain := (s.ports.get t).state.restartAfterDrain
  temperature := (s.ports.get t).temperature
  kind := (s.frames.get t).kind
  level := (s.frames.get t).level
  temperatureInForce := (s.frames.get t).temperature
  underruns := (s.cmp.get t).underruns
  active := s.cvb.active.get t
  shadow := if s.cvb.isComplete then s.cvb.shadow.get t else none

/-- TILE_INFO's own test and its answer (R164). -/
def opTileInfo (tile : Nat) : CommandOp := fun s =>
  match recordId tile 16 with
  | none => s.answer .badValue .empty
  | some t => s.answer .ok (.tile (s.tileReport t))

/-- TILE_INFO. -/
def execTileInfo (unit tile : Nat) (s : State) : Host.Outcome State Fault Refusal :=
  .next (s.hostCommand unit (.tileInfo tile) (opTileInfo tile))

end Sys2Proof.Machine
end

