-- ==== Sys2Proof/Machine/System.lean ====
section
/-! DEFINITION. IDENTIFY, STATUS, SET_TIMING, STOP, the event commands, POLL; the resets and the end of STARTING (10; the reset
tables of every chapter). -/

namespace Sys2Proof.Machine

/-! ### Commands of the part as a whole -/

/-- IDENTIFY's answer (R186). -/
def opIdentify : CommandOp := fun s => s.answer .ok (.identity ⟨17, 16, Config.revision, s.clc.straps⟩)

/-- IDENTIFY. -/
def execIdentify (unit : Nat) (s : State) : Host.Outcome State Fault Refusal :=
  .next (s.hostCommand unit .identify opIdentify)

/-- The state STATUS returns (R187, with R111, R124, R149, R176, R190). The RDY line reads released where this part releases it and,
by a free value, every other part does (entry 9). -/
def State.statusReport (s : State) : StatusReport where
  phase := s.phase
  rate := s.rate
  straps := s.clc.straps
  lastBroadcast := s.clc.lastBroadcast
  sync := s.csu.sync
  frame := s.csu.frame
  cutSequence := s.csu.cutSequence
  lastCut := s.csu.lastCut
  nomination := s.csu.nomination
  heldGroup := s.heldGroup
  readinessGiven := s.csu.readinessGiven
  desyncHold := s.csu.desyncHold
  rdyReleased := s.csu.rdyReleased
  rdyLineReleased := s.csu.rdyReleased && Config.othersReleaseRdy s.freeCount
  prep := s.cvb.prep
  pacing := s.fsc.pacing
  uploadBytesLeft := s.fsc.upload.map fun u => u.data.length
  budget := s.fsc.budget
  cue := s.cbi.cue
  inversion := s.cbi.inversion
  blackoutInput := s.cbi.input
  blackoutMode := s.cbi.mode
  latch := s.cbi.latch
  blackoutState := s.cbi.state
  blackoutFlag := s.csu.blackoutFlag
  flagsSet := s.evb.flagsSet
  enables := s.evb.enables
  wantsAttention := s.wantsAttention

/-- STATUS's answer (R187); the next reading of the RDY line is another free value. -/
def opStatus : CommandOp := fun s => State.answer { s with freeCount := s.freeCount + 1 } .ok (.status s.statusReport)

/-- STATUS. -/
def execStatus (unit : Nat) (s : State) : Host.Outcome State Fault Refusal :=
  .next (s.hostCommand unit .status opStatus)

/-- SET_TIMING's own test and its effect (R184). -/
def opSetTiming (hertz : Nat) : CommandOp := fun s =>
  match Rate.ofHertz hertz with
  | none => s.answer .badValue .empty
  | some r => State.answer { s with rate := r } .ok .empty

/-- SET_TIMING. -/
def execSetTiming (unit rate : Nat) (s : State) : Host.Outcome State Fault Refusal :=
  .next (s.hostCommand unit (.setTiming rate) (opSetTiming rate))

/-- STOP's effect (R184). -/
def opStop : CommandOp := fun s => (s.enterPhase .config).answer .ok .empty

/-- STOP. -/
def execStop (unit : Nat) (s : State) : Host.Outcome State Fault Refusal := .next (s.hostCommand unit .stop opStop)

/-- One flag as EVENTS returns it (R189). -/
def flagReport (i : Fin 16) (r : FlagRec) : FlagReport :=
  ⟨i, r.detail, r.repeats, if gathersMask i then some r.mask else none⟩

/-- Every set flag, as EVENTS returns them (R189). -/
def Evb.reports (e : Evb) : List FlagReport :=
  (List.finRange 16).filterMap fun i => (e.flags.get i).map (flagReport i)

/-- EVENTS's answer and its effect: the flags returned are cleared in the same step (R189). -/
def opEvents : CommandOp := fun s => State.answer { s with evb := s.evb.cleared } .ok (.events s.evb.reports)

/-- EVENTS. -/
def execEvents (unit : Nat) (s : State) : Host.Outcome State Fault Refusal :=
  .next (s.hostCommand unit .events opEvents)

/-- SET_EVENT_ENABLES's own test and its effect (R189). -/
def opSetEventEnables (marks : Table Nat 16) : CommandOp := fun s =>
  match marksOf marks with
  | none => s.answer .badValue .empty
  | some m => State.answer { s with evb := { s.evb with enables := m } } .ok .empty

/-- SET_EVENT_ENABLES. -/
def execSetEventEnables (unit : Nat) (marks : Table Nat 16) (s : State) : Host.Outcome State Fault Refusal :=
  .next (s.hostCommand unit (.setEventEnables marks) (opSetEventEnables marks))

/-- POLL's effect: the part awaits the grant (R191). It is recorded with status OK (R181). -/
def opPoll : CommandOp := fun s => State.answer { s with clc := { s.clc with grant := .awaiting } } .ok .empty

/-- POLL: the other parts hear it on the shared link as this one does. -/
def execPoll (unit : Nat) (s : State) : Host.Outcome State Fault Refusal :=
  .next ((s.hears (encodeFrame unit .poll)).hostCommand unit .poll opPoll)

/-! ### Resets -/

/-- The command link controller after RST_KEEP or SOFT_RESET (R185). -/
def Clc.kept (c : Clc) : Clc :=
  { c with
    rx := []
    executing := none
    response := none
    lastBroadcast := none
    grant := .passing
    pollAnswer := none }

/-- A port's state after RST_KEEP or SOFT_RESET (R153, R156, R165). -/
def PortState.kept (now milliseconds : Nat) : PortState → PortState
  | .off => .off
  | .powering _ => warmUpFrom now milliseconds
  | .training a n => .training a n
  | .up => .up
  | .lost => .lost
  | .draining stage _ => .draining stage false
  | .fault => .fault

/-- A surface record after RST_KEEP or SOFT_RESET (R37). -/
def SurfaceRec.kept (r : SurfaceRec) : SurfaceRec :=
  match r.state with
  | .ready d => ⟨.ready d, 0⟩
  | .loading _ _ => ⟨.empty, 0⟩
  | .empty => ⟨.empty, 0⟩

/-- The frame store controller after RST_KEEP or SOFT_RESET (R136). -/
def Fsc.kept (f : Fsc) : Fsc :=
  { f with
    fetches := Table.replicate 16 none
    upload := none
    burst := none
    budget := pacingBudget f.pacing
    loadMark := false
    waitMark := false
    owed := false
    serving := none }

/-- The frame store's contents after RST_KEEP or SOFT_RESET: kept, but for the bytes of a load burst cut short (R36, R148,
entry 4). -/
def keptStore (store : List Host.Cell) (burst : Option Burst) : List Host.Cell :=
  match burst with
  | none => store
  | some b =>
    match b.kind with
    | .load => Memory.forget store b.address b.length
    | .fetch _ _ => store

/-- The chain sync unit after RST_KEEP or SOFT_RESET (R110). A locked slave's own timing goes on from the last word. -/
def Csu.kept (role : Role) (c : Csu) : Csu :=
  { c with
    sync := match role with | .master => .locked | .slave => .unlocked
    nomination := none
    readinessGiven := false
    desyncHold := none
    lockRun := 0
    lastCounted := none
    lossTimer := none
    rdyReleased := false
    blackoutFlag := false
    timing := c.timing || (decide (role = .slave) && decide (c.sync = .locked)) }

/-- The values of RST_KEEP and SOFT_RESET, block by block (R8, R16, R37, R63, R88, R110, R112, R136, R146, R165, R167, R185, R188). -/
def State.keepValues (s : State) : State :=
  { s with
    phase := .starting
    clc := s.clc.kept
    held := ⟨s.geo, Table.replicate 16 none⟩
    ports := s.ports.mapIdx fun t p => { p with state := p.state.kept s.now (s.tiles.get t).warmUp }
    frames := s.frames.mapIdx fun _ f => { f with entries := [] }
    cmp := Table.replicate 16 CmpTile.reset
    sdir := s.sdir.mapIdx fun _ r => r.kept
    store := keptStore s.store s.fsc.burst
    fsc := s.fsc.kept
    ptab := Table.replicate 128 .free
    groups := s.groups.mapIdx fun _ r => { r with state := .idle }
    due := []
    csu := s.csu.kept s.clc.straps.role
    cvb := Cvb.reset
    cbi := s.cbi.sampledAtReset s.pins.blackout s.now
    evb := s.evb.cleared }

/-- The values of power-on and RST_ALL with these straps, block by block: those of State.reset, the pins, the clock and the queue as
they are (R2, R4, R8, R37, R63, R88, R110, R112, R126, R136, R150, R165, R167, R184, R185, R188). The frame store's contents become
undefined (R36). -/
def State.allValues (straps : Straps) (s : State) : State :=
  { State.reset with
    pending := s.pending
    now := s.now
    startingEnd := s.startingEnd
    pins := s.pins
    clc := Clc.powerOn straps
    csu := Csu.powerOn straps.role
    cbi := Cbi.powerOn s.pins.blackout s.now
    storeEpoch := s.storeEpoch + 1
    freeCount := s.freeCount }

/-- STARTING lasts this long after power-on and RST_ALL (R182). -/
def longStart : Nat := 40 * Config.ticksPerMilli

/-- STARTING lasts this long after RST_KEEP and SOFT_RESET (R182). -/
def shortStart : Nat := 2 * Config.ticksPerMilli

/-- STARTING runs for `ticks` from now on, or to the later end that an earlier reset gave (R182). -/
def State.startingFor (ticks : Nat) (s : State) : State := { s with startingEnd := max s.startingEnd (s.now + ticks) }

/-- SOFT_RESET's effect: no response, no broadcast result (R185). -/
def opSoftReset : CommandOp := fun s => (s.keepValues.startingFor shortStart, .silent)

/-- SOFT_RESET. -/
def execSoftReset (unit : Nat) (s : State) : Host.Outcome State Fault Refusal :=
  .next (s.hostCommand unit .softReset opSoftReset)

/-- The levels of the shop inputs and of GIN. -/
def Pins.withInputs (inputs : InputLevels) (p : Pins) : Pins :=
  { p with cue := inputs.cue, blackout := inputs.blackout, gin := inputs.gin }

/-- POWER_ON (R182, R186). -/
def execPowerOn (straps : Straps) (inputs : InputLevels) (s : State) : Host.Outcome State Fault Refusal :=
  .next ((State.allValues straps { s with pins := s.pins.withInputs inputs }).startingFor longStart)

/-- RST_ALL_ASSERT (R182, entry 16): the part is held at the beginning of STARTING; the straps are sampled at the release. -/
def execRstAllAssert (s : State) : Host.Outcome State Fault Refusal :=
  if s.pins.rstAll then .next s
  else .next (State.allValues s.clc.straps { s with pins := { s.pins with rstAll := true } })

/-- RST_ALL_RELEASE (R182, R186); nothing where RST_ALL is not asserted (entry 6). -/
def execRstAllRelease (straps : Straps) (s : State) : Host.Outcome State Fault Refusal :=
  if s.pins.rstAll then
    .next ((State.allValues straps { s with pins := { s.pins with rstAll := false } }).startingFor longStart)
  else .next s

/-- RST_KEEP_ASSERT (R182, entry 16). -/
def execRstKeepAssert (s : State) : Host.Outcome State Fault Refusal :=
  if s.pins.rstKeep then .next s
  else .next (State.keepValues { s with pins := { s.pins with rstKeep := true } })

/-- RST_KEEP_RELEASE (R182); nothing where RST_KEEP is not asserted (entry 6). -/
def execRstKeepRelease (s : State) : Host.Outcome State Fault Refusal :=
  if s.pins.rstKeep then
    .next ((State.keepValues { s with pins := { s.pins with rstKeep := false } }).startingFor shortStart)
  else .next s

/-- The pacing windows begin at `now`, with the budget of the code in force (R141, R148). -/
def Fsc.firstWindow (now : Nat) (f : Fsc) : Fsc :=
  { f with
    budget := pacingBudget f.pacing
    loadMark := false
    waitMark := false
    owed := false
    windowStart := now }

/-- The part's frame timing starts at `now`, where it does not run already (R91, R110). -/
def Csu.startTiming (now : Nat) (c : Csu) : Csu :=
  { c with
    timing := true
    boundaryAt := if c.timing then c.boundaryAt else now }

/-- STARTING ends: CONFIG, the cues sampled, the pacing windows and the frame timing started (R91, R141, R169, R182). -/
def State.endStarting (s : State) : State :=
  State.enterPhase .config
    { s with
      cbi := s.cbi.sampleCues s.pins.cue s.now
      fsc := s.fsc.firstWindow s.now
      csu := s.csu.startTiming s.now }

/-- STARTING_END (R182): nothing outside STARTING or while a reset input is asserted (entry 6). -/
def execStartingEnd (s : State) : Host.Outcome State Fault Refusal :=
  if s.phase = .starting ∧ s.pins.rstAll = false ∧ s.pins.rstKeep = false then
    .next (s.atLeast s.startingEnd).endStarting
  else .next s

end Sys2Proof.Machine
end

