-- ==== Sys2Proof/Machine/CommandFrame.lean ====
section
/-! DEFINITION. COMMAND_FRAME: any bytes of a write transfer (R177, R178). -/

namespace Sys2Proof.Machine

/-- The own tests and effect of every host command: what its row runs once tests 1 to 5 of R178 have passed. -/
def commandOp : HostCmd → CommandOp
  | .identify => opIdentify
  | .status => opStatus
  | .setTiming rate => opSetTiming rate
  | .setGeometry w h gx gy => opSetGeometry w h gx gy
  | .setTile t p c r tx ty => opSetTile t p c r tx ty
  | .start => opStart
  | .stop => opStop
  | .softReset => opSoftReset
  | .defineSurface id f w h c b k => opDefineSurface id f w h c b k
  | .upload id off chunk => opUpload id off chunk
  | .dropSurface id => opDropSurface id
  | .place id g v => opPlace id g v
  | .amend id v r => opAmend id v r
  | .retire id => opRetire id
  | .withdraw id => opWithdraw id
  | .lookup id => opLookup id
  | .find x y => opFind x y
  | .setGroup g k c e t m => opSetGroup g k c e t m
  | .commit g => opCommit g
  | .cancel g => opCancel g
  | .groupInfo g => opGroupInfo g
  | .surfaceInfo id => opSurfaceInfo id
  | .setBackground c => opSetBackground c
  | .tilePower s w u => opTilePower s w u
  | .tileMode s m f l => opTileMode s m f l
  | .tileInfo t => opTileInfo t
  | .setBlackout m i => opSetBlackout m i
  | .clearBlackout => opClearBlackout
  | .setPacing c => opSetPacing c
  | .events => opEvents
  | .setEventEnables m => opSetEventEnables m
  | .poll => opPoll

/-- The command that a frame's payload carries, as an operation; a frame that carries none never reaches execution (R178). -/
def frameOp (h : FrameHeader) : CommandOp :=
  match parseCommand h.code h.rest with
  | none => fun s => s.answer .badLength .empty
  | some c => commandOp c

/-- A write transfer (R177): fewer than four bytes are dropped; else the tests of R178 and, past them, the command. -/
def State.takeTransfer (bytes : List Byte) (s : State) : State :=
  match splitFrame bytes with
  | none => s
  | some h => s.receive bytes h.unit h.code (frameRefusal h) (frameOp h)

/-- COMMAND_FRAME: the frame passes on the link, and this part does with it what R177 says. -/
def execCommandFrame (bytes : List Byte) (s : State) : Host.Outcome State Fault Refusal :=
  .next ((s.hears bytes).takeTransfer bytes)

end Sys2Proof.Machine
end

