-- ==== Sys2Proof/Machine/Dispatch.lean ====
section
/-! DEFINITION. One arm per command and event: the meaning of each. -/

namespace Sys2Proof.Machine

/-- The effect of a command or event on everything but the queue. -/
def exec (i : Instr) (s : State) : Host.Outcome State Fault Refusal :=
  match i with
  | .identify unit => Sys2Proof.Machine.execIdentify unit s
  | .status unit => Sys2Proof.Machine.execStatus unit s
  | .setTiming unit rate => Sys2Proof.Machine.execSetTiming unit rate s
  | .setGeometry unit panelW panelH gapX gapY => Sys2Proof.Machine.execSetGeometry unit panelW panelH gapX gapY s
  | .setTile unit tile placed column row trimX trimY => Sys2Proof.Machine.execSetTile unit tile placed column row trimX trimY s
  | .start unit => Sys2Proof.Machine.execStart unit s
  | .stop unit => Sys2Proof.Machine.execStop unit s
  | .softReset unit => Sys2Proof.Machine.execSoftReset unit s
  | .defineSurface unit id format width height cells basePage key => Sys2Proof.Machine.execDefineSurface unit id format width height cells basePage key s
  | .upload unit id offset chunk => Sys2Proof.Machine.execUpload unit id offset chunk s
  | .dropSurface unit id => Sys2Proof.Machine.execDropSurface unit id s
  | .surfaceInfo unit id => Sys2Proof.Machine.execSurfaceInfo unit id s
  | .place unit id group values => Sys2Proof.Machine.execPlace unit id group values s
  | .amend unit id values restart => Sys2Proof.Machine.execAmend unit id values restart s
  | .retire unit id => Sys2Proof.Machine.execRetire unit id s
  | .withdraw unit id => Sys2Proof.Machine.execWithdraw unit id s
  | .lookup unit id => Sys2Proof.Machine.execLookup unit id s
  | .find unit x y => Sys2Proof.Machine.execFind unit x y s
  | .setGroup unit group kind cue edge target timeout => Sys2Proof.Machine.execSetGroup unit group kind cue edge target timeout s
  | .commit unit group => Sys2Proof.Machine.execCommit unit group s
  | .cancel unit group => Sys2Proof.Machine.execCancel unit group s
  | .groupInfo unit group => Sys2Proof.Machine.execGroupInfo unit group s
  | .setBackground unit colour => Sys2Proof.Machine.execSetBackground unit colour s
  | .tilePower unit selector switch warmUp => Sys2Proof.Machine.execTilePower unit selector switch warmUp s
  | .tileMode unit selector mode flat level => Sys2Proof.Machine.execTileMode unit selector mode flat level s
  | .tileInfo unit tile => Sys2Proof.Machine.execTileInfo unit tile s
  | .setBlackout unit mode marks => Sys2Proof.Machine.execSetBlackout unit mode marks s
  | .clearBlackout unit => Sys2Proof.Machine.execClearBlackout unit s
  | .setPacing unit code => Sys2Proof.Machine.execSetPacing unit code s
  | .events unit => Sys2Proof.Machine.execEvents unit s
  | .setEventEnables unit marks => Sys2Proof.Machine.execSetEventEnables unit marks s
  | .poll unit => Sys2Proof.Machine.execPoll unit s
  | .commandFrame bytes => Sys2Proof.Machine.execCommandFrame bytes s
  | .readTransfer unit complete => Sys2Proof.Machine.execReadTransfer unit complete s
  | .grantArrival => Sys2Proof.Machine.execGrantArrival s
  | .powerOn straps inputs => Sys2Proof.Machine.execPowerOn straps inputs s
  | .rstAllAssert => Sys2Proof.Machine.execRstAllAssert s
  | .rstAllRelease straps => Sys2Proof.Machine.execRstAllRelease straps s
  | .rstKeepAssert => Sys2Proof.Machine.execRstKeepAssert s
  | .rstKeepRelease => Sys2Proof.Machine.execRstKeepRelease s
  | .startingEnd => Sys2Proof.Machine.execStartingEnd s
  | .masterFrameBoundary othersRelease => Sys2Proof.Machine.execMasterFrameBoundary othersRelease s
  | .commitTimeout => Sys2Proof.Machine.execCommitTimeout s
  | .frameTrigger => Sys2Proof.Machine.execFrameTrigger s
  | .syncWordArrival bytes => Sys2Proof.Machine.execSyncWordArrival bytes s
  | .syncLoss => Sys2Proof.Machine.execSyncLoss s
  | .freeRunBoundary => Sys2Proof.Machine.execFreeRunBoundary s
  | .wordOverdue => Sys2Proof.Machine.execWordOverdue s
  | .runExpiry id => Sys2Proof.Machine.execRunExpiry id s
  | .fadeComplete id => Sys2Proof.Machine.execFadeComplete id s
  | .preparationComplete => Sys2Proof.Machine.execPreparationComplete s
  | .lineDue tile => Sys2Proof.Machine.execLineDue tile s
  | .burstEnd => Sys2Proof.Machine.execBurstEnd s
  | .pacingWindow => Sys2Proof.Machine.execPacingWindow s
  | .uploadComplete => Sys2Proof.Machine.execUploadComplete s
  | .warmUpExpiry tile => Sys2Proof.Machine.execWarmUpExpiry tile s
  | .trainingAttemptFail tile => Sys2Proof.Machine.execTrainingAttemptFail tile s
  | .tileLost tile => Sys2Proof.Machine.execTileLost tile s
  | .drainEnd tile => Sys2Proof.Machine.execDrainEnd tile s
  | .backChannelStatus tile locked temperature => Sys2Proof.Machine.execBackChannelStatus tile locked temperature s
  | .cueEdge cue level heldMicros => Sys2Proof.Machine.execCueEdge cue level heldMicros s
  | .blackoutInputChange level heldMicros => Sys2Proof.Machine.execBlackoutInputChange level heldMicros s
  | .startComplete => Sys2Proof.Machine.execStartComplete s

end Sys2Proof.Machine
end

