-- ==== Sys2Proof/WellFormed.lean ====
section
/-! DEFINITION. Which commands fit the frames that carry them: every field fits the bytes the command payloads give it
(10, section 10.6), and a sync word has its fourteen bytes. Ranges that a command itself tests and refuses are no matter of
well-formedness. -/

namespace Sys2Proof

/-- A number that fits one byte. -/
def fits1 (n : Nat) : Bool := n < 256

/-- A number that fits two bytes. -/
def fits2 (n : Nat) : Bool := n < 65536

/-- A number that fits four bytes. -/
def fits4 (n : Nat) : Bool := n < 4294967296

/-- A number that one byte carries as signed. -/
def fitsSigned1 (n : Int) : Bool := -128 ≤ n && n ≤ 127

/-- An optional field: absent, or fitting. -/
def fitsOption (fits : Nat → Bool) : Option Nat → Bool
  | none => true
  | some n => fits n

/-- The three two-byte channels of a colour carried by a command. -/
def Rgb.fits (c : Rgb) : Bool := fits2 c.red && fits2 c.green && fits2 c.blue

/-- The 27 bytes of PLACE and AMEND. -/
def RawValues.fits (v : RawValues) : Bool :=
  fits1 v.layer && fits2 v.dx && fits2 v.dy && fits2 v.dw && fits2 v.dh && fits1 v.surface
    && fits2 v.sx && fits2 v.sy && fits2 v.sw && fits2 v.sh && fits2 v.alpha
    && fits1 v.fadeIn && fits1 v.fadeOut && fits2 v.runLength
    && fits1 v.cellRate && fits1 v.firstCell && fits1 v.cellMode

/-- The fields of a command fit its payload (10, section 10.6 "Command payloads"). -/
def HostCmd.wellFormed : HostCmd → Bool
  | .identify => true
  | .status => true
  | .setTiming rate => fits1 rate
  | .setGeometry w h gx gy => fits2 w && fits2 h && fits2 gx && fits2 gy
  | .setTile t p c r tx ty => fits1 t && fits1 p && fits1 c && fits1 r && fitsSigned1 tx && fitsSigned1 ty
  | .start => true
  | .stop => true
  | .softReset => true
  | .defineSurface id f w h c b k =>
      fits1 id && fits1 f && fits2 w && fits2 h && fits1 c && fits4 b && fitsOption fits4 k
  | .upload id off chunk => fits1 id && fits4 off && chunk.length ≤ 4096
  | .dropSurface id => fits1 id
  | .place id g v => fits1 id && fits1 g && v.fits
  | .amend id v r => fits1 id && v.fits && fits1 r
  | .retire id => fits1 id
  | .withdraw id => fits1 id
  | .lookup id => fits1 id
  | .find x y => fits2 x && fits2 y
  | .setGroup g k c e t m => fits1 g && fits1 k && fits1 c && fits1 e && fits4 t && fits2 m
  | .commit g => fits1 g
  | .cancel g => fits1 g
  | .groupInfo g => fits1 g
  | .surfaceInfo id => fits1 id
  | .setBackground c => c.fits
  | .tilePower s w u => fits1 s && fits1 w && fitsOption fits2 u
  | .tileMode s m f l => fits1 s && fits1 m && (match f with | none => true | some c => c.fits) && fitsOption fits2 l
  | .tileInfo t => fits1 t
  | .setBlackout m i => fits1 m && (match i with | none => true | some t => t.rows.all fits1)
  | .clearBlackout => true
  | .setPacing c => fits1 c
  | .events => true
  | .setEventEnables m => m.rows.all fits1
  | .poll => true

/-- The host command a row is, with its unit byte; none for the rows that are no command of the code list. -/
def Instr.hostCmd : Instr → Option (Nat × HostCmd)
  | .identify u => some (u, .identify)
  | .status u => some (u, .status)
  | .setTiming u rate => some (u, .setTiming rate)
  | .setGeometry u w h gx gy => some (u, .setGeometry w h gx gy)
  | .setTile u t p c r tx ty => some (u, .setTile t p c r tx ty)
  | .start u => some (u, .start)
  | .stop u => some (u, .stop)
  | .softReset u => some (u, .softReset)
  | .defineSurface u id f w h c b k => some (u, .defineSurface id f w h c b k)
  | .upload u id off chunk => some (u, .upload id off chunk)
  | .dropSurface u id => some (u, .dropSurface id)
  | .surfaceInfo u id => some (u, .surfaceInfo id)
  | .place u id g v => some (u, .place id g v)
  | .amend u id v r => some (u, .amend id v r)
  | .retire u id => some (u, .retire id)
  | .withdraw u id => some (u, .withdraw id)
  | .lookup u id => some (u, .lookup id)
  | .find u x y => some (u, .find x y)
  | .setGroup u g k c e t m => some (u, .setGroup g k c e t m)
  | .commit u g => some (u, .commit g)
  | .cancel u g => some (u, .cancel g)
  | .groupInfo u g => some (u, .groupInfo g)
  | .setBackground u c => some (u, .setBackground c)
  | .tilePower u s w x => some (u, .tilePower s w x)
  | .tileMode u s m f l => some (u, .tileMode s m f l)
  | .tileInfo u t => some (u, .tileInfo t)
  | .setBlackout u m i => some (u, .setBlackout m i)
  | .clearBlackout u => some (u, .clearBlackout)
  | .setPacing u c => some (u, .setPacing c)
  | .events u => some (u, .events)
  | .setEventEnables u m => some (u, .setEventEnables m)
  | .poll u => some (u, .poll)
  | .commandFrame _ => none
  | .readTransfer _ _ => none
  | .grantArrival => none
  | .powerOn _ _ => none
  | .rstAllAssert => none
  | .rstAllRelease _ => none
  | .rstKeepAssert => none
  | .rstKeepRelease => none
  | .startingEnd => none
  | .masterFrameBoundary _ => none
  | .commitTimeout => none
  | .frameTrigger => none
  | .syncWordArrival _ => none
  | .syncLoss => none
  | .freeRunBoundary => none
  | .wordOverdue => none
  | .runExpiry _ => none
  | .fadeComplete _ => none
  | .preparationComplete => none
  | .lineDue _ => none
  | .burstEnd => none
  | .pacingWindow => none
  | .uploadComplete => none
  | .warmUpExpiry _ => none
  | .trainingAttemptFail _ => none
  | .tileLost _ => none
  | .drainEnd _ => none
  | .backChannelStatus _ _ _ => none
  | .cueEdge _ _ _ => none
  | .blackoutInputChange _ _ => none
  | .startComplete => none

/-- A row with its operands fits what carries it: a host command its frame, a read its unit byte, a sync word its fourteen
bytes (R192). -/
def Instr.wellFormed (i : Instr) : Bool :=
  match i.hostCmd with
  | some (u, c) => fits1 u && c.wellFormed
  | none =>
    match i with
    | .readTransfer u _ => fits1 u
    | .syncWordArrival bytes => bytes.length = 14
    | _ => true

end Sys2Proof
end

