-- ==== Sys2Proof/Safety.lean ====
section
/-! DEFINITION. What a good state is, and the words the statements use: when a command is taken, what the link answers, and the
invariants that every step keeps. -/

namespace Sys2Proof.Machine

/-! ### When a command is taken, and what is answered -/

/-- A frame with this unit byte and command code, carrying a payload the command takes, reaches the command's own tests (R177, R178,
R179, R182). -/
def State.Takes (s : State) (unit code : Nat) : Prop :=
  s.phase ≠ .starting ∧ s.clc.executing = none ∧ (unit = s.clc.straps.unit.val ∨ unit = 15)
    ∧ (unit = 15 → code ∉ [1, 2, 16, 17, 21, 22, 26, 30]) ∧ (unit ≠ 15 → code ≠ 32)
    ∧ (s.phase = .config → code ≠ 7) ∧ (s.phase = .running → code ∉ [3, 4, 5, 6])

/-- The command link controller after a command whose result comes at once: the frame in the receive buffer, the result as the
waiting response, or as the last broadcast result where the frame was a broadcast (R179 to R181). -/
def State.answered (s : State) (unit code : Nat) (bytes : List Byte) (status : Status) (payload : Payload) : Clc :=
  { s.clc with
    rx := bytes
    executing := none
    response := if unit = 15 then none else some ⟨status, code, false, payload⟩
    lastBroadcast := if unit = 15 then some (code, status) else s.clc.lastBroadcast
    pollAnswer := none }

/-- The command link controller after a command whose result comes later (R179). -/
def State.nowExecuting (s : State) (unit code : Nat) (bytes : List Byte) (job : Job) : Clc :=
  { s.clc with
    rx := bytes
    executing := some ⟨code, decide (unit = 15), false, job⟩
    response := none
    pollAnswer := none }

/-- `t` as a taken command leaves it that is answered at once: the rest of the part as `t` has it, the answer in the link. -/
def State.replied (t : State) (unit : Nat) (c : HostCmd) (status : Status) (payload : Payload) : State :=
  { t with clc := t.answered unit c.code (encodeFrame unit c) status payload }

/-- The payload lengths each command code takes (10, section 10.6 "Command payloads", last column). -/
def lengthTaken (code n : Nat) : Bool :=
  (code ∈ [1, 2, 6, 7, 8, 28, 30, 32] && n = 0) || (code ∈ [3, 11, 14, 15, 16, 19, 20, 21, 22, 26, 29] && n = 1)
    || (code = 4 && n = 8) || (code = 5 && n = 6) || (code = 9 && n ∈ [11, 15]) || (code = 10 && 5 ≤ n && n ≤ 4101)
    || (code ∈ [12, 13] && n = 29) || (code = 17 && n = 4) || (code = 18 && n = 10) || (code = 23 && n = 6)
    || (code = 24 && n ∈ [2, 4]) || (code = 25 && n ∈ [2, 4, 8, 10]) || (code = 27 && n ∈ [1, 5]) || (code = 31 && n = 16)

/-- The first failing one of tests 1 to 5 of R178 on a frame of `count` payload bytes with this header. -/
def State.frameTests (s : State) (unit code length count : Nat) : Option Status :=
  if 4101 < length ∨ count ≠ length then some .badLength
  else if code < 1 ∨ 32 < code then some .badCommand
  else if (unit = 15 ∧ code ∈ [1, 2, 16, 17, 21, 22, 26, 30]) ∨ (unit ≠ 15 ∧ code = 32) then some .badCommand
  else if lengthTaken code count = false then some .badLength
  else if (s.phase = .config ∧ code = 7) ∨ (s.phase = .running ∧ code ∈ [3, 4, 5, 6]) then some .wrongPhase
  else none

/-- The event block after a report, which is taken in every phase after STARTING (R188). -/
def State.told (s : State) (d : Detail) : Evb := if s.phase = .starting then s.evb else s.evb.record d

/-! ### The wall and the resets -/

/-- The origin of a tile under the geometry setting, with its sign (R7). -/
def State.tileOrigin (s : State) (t : TileId) : Int × Int :=
  (((s.tiles.get t).column * (s.geo.panelW + s.geo.gapX) : Nat) + (s.tiles.get t).trimX,
    ((s.tiles.get t).row * (s.geo.panelH + s.geo.gapY) : Nat) + (s.tiles.get t).trimY)

/-- A window of this origin and size lies on the wall in one direction (R9, tests 1 and 2). -/
def onWall (origin : Int) (size : Nat) : Prop := 0 ≤ origin ∧ origin + size ≤ 16384

/-- Another placed tile of the part holds the tile's column and row (R9, test 3). -/
def State.SharesPlace (s : State) (t : TileId) : Prop :=
  ∃ u, u ≠ t ∧ (s.tiles.get u).placed = true ∧ (s.tiles.get u).column = (s.tiles.get t).column
    ∧ (s.tiles.get u).row = (s.tiles.get t).row

/-- A tile that does not offend: it is not placed, or the three tests of R9 hold for it. -/
def State.TileFits (s : State) (t : TileId) : Prop :=
  (s.tiles.get t).placed = true →
    onWall (s.tileOrigin t).1 s.geo.panelW ∧ onWall (s.tileOrigin t).2 s.geo.panelH ∧ ¬ s.SharesPlace t

/-- A placed tile offends, and this is the reason of its first failing test (R9). -/
def State.Offends (s : State) (t : TileId) (reason : GeometryReason) : Prop :=
  (s.tiles.get t).placed = true ∧
    match reason with
    | .spanX => ¬ onWall (s.tileOrigin t).1 s.geo.panelW
    | .spanY => onWall (s.tileOrigin t).1 s.geo.panelW ∧ ¬ onWall (s.tileOrigin t).2 s.geo.panelH
    | .duplicate => onWall (s.tileOrigin t).1 s.geo.panelW ∧ onWall (s.tileOrigin t).2 s.geo.panelH ∧ s.SharesPlace t

/-- A port's state after RST_KEEP or SOFT_RESET (R165). -/
def portAfterKeep (now milliseconds : Nat) (st : PortState) : PortState :=
  match st with
  | .powering _ => .powering (now + milliseconds * Config.ticksPerMilli)
  | .draining stage _ => .draining stage false
  | other => other

/-- `t` is the part after RST_KEEP or SOFT_RESET, by the reset table of every chapter (R16, R37, R63, R88, R110, R112, R135, R136,
R146, R165, R167, R185, R188). The reset pins and the end of STARTING are the event's own. The store keeps its bytes but for those
of a load burst cut short (R36, R148). -/
def State.AfterKeepReset (s t : State) : Prop :=
  t = { s with
      phase := .starting
      pins := t.pins
      startingEnd := t.startingEnd
      clc := { s.clc with
        rx := [], executing := none, response := none, lastBroadcast := none, grant := .passing, pollAnswer := none }
      held := ⟨s.geo, Table.replicate 16 none⟩
      ports := Table.ofFn fun i => { s.ports.get i with
        state := portAfterKeep s.now (s.tiles.get i).warmUp (s.ports.get i).state }
      frames := Table.ofFn fun i => { s.frames.get i with entries := [] }
      cmp := Table.replicate 16 ⟨none, none, 0⟩
      sdir := Table.ofFn fun i =>
        match (s.sdir.get i).state with
        | .ready d => ⟨.ready d, 0⟩
        | .loading _ _ => ⟨.empty, 0⟩
        | .empty => ⟨.empty, 0⟩
      store := t.store
      fsc := { s.fsc with
        fetches := Table.replicate 16 none, upload := none, burst := none
        budget := 20 * (s.fsc.pacing.val + 1), loadMark := false, waitMark := false, owed := false, serving := none }
      ptab := Table.replicate 128 .free
      groups := Table.ofFn fun g => { s.groups.get g with state := .idle }
      due := []
      csu := { s.csu with
        sync := if s.clc.straps.role = .master then .locked else .unlocked
        nomination := none, readinessGiven := false, desyncHold := none, lockRun := 0, lastCounted := none
        lossTimer := none, rdyReleased := false, blackoutFlag := false
        timing := s.csu.timing || (s.clc.straps.role = .slave && s.csu.sync = .locked) }
      cvb := ⟨Table.replicate 16 ⟨[], 0⟩, Table.replicate 16 none, .none⟩
      cbi := { s.cbi with
        cue := Table.replicate 4 none
        input := s.pins.blackout
        latch := s.cbi.mode = .latch && s.pins.blackout
        state := s.cbi.mode ≠ .off && s.pins.blackout
        blackoutSampledAt := s.now }
      evb := { s.evb with flags := Table.replicate 16 none } }
    ∧ ∀ a, (∀ b, s.fsc.burst = some b → b.kind = .load → a < b.address ∨ b.address + b.length ≤ a) →
        Memory.read t.store a = Memory.read s.store a

/-- The part after power-on or RST_ALL with these straps and pins: State.reset's values, the queue and the clock as they are. -/
def State.afterFullReset (s : State) (straps : Straps) (pins : Pins) (startingEnd : Nat) : State :=
  { State.reset with
    pending := s.pending
    now := s.now
    startingEnd := startingEnd
    pins := pins
    clc := Clc.powerOn straps
    csu := Csu.powerOn straps.role
    cbi := Cbi.powerOn pins.blackout s.now
    storeEpoch := s.storeEpoch + 1
    freeCount := s.freeCount }

/-! ### Fields of surface and placement commands -/

/-- Test 3 of R23 fails: a format, width, height, number of cells or key out of place (R21, R23; 10, section 10.6). -/
def surfaceFieldsFail (format width height cells : Nat) (key : Option Nat) : Prop :=
  1 < format ∨ width < 1 ∨ 4096 < width ∨ height < 1 ∨ 4096 < height ∨ cells < 1 ∨ 64 < cells ∨ height % cells ≠ 0
    ∨ (format = 1 ∧ ∃ n, key = some n ∧ 65535 < n) ∨ (format = 0 ∧ ∃ n, key = some n ∧ 16777215 < n)

/-- The key a command's number names in a format (R21; 10, section 10.6). -/
def keyNamed (format : Nat) (key : Option Nat) : Option Key :=
  key.map fun n => if format = 1 then .half n else .full (n % 256) (n / 256 % 256) (n / 65536)

/-- The two descriptions' page ranges overlap (R23, test 5; R25). -/
def Desc.Overlaps (a b : Desc) : Prop :=
  a.basePage < b.basePage + b.pageCount ∧ b.basePage < a.basePage + a.pageCount

/-- Test 1 of R45 passes: every field of a set of values lies in its range (R39). -/
def valuesFit (v : RawValues) : Prop :=
  v.layer ≤ 15 ∧ v.dx ≤ 16383 ∧ v.dy ≤ 16383 ∧ 1 ≤ v.dw ∧ v.dw ≤ 16384 ∧ 1 ≤ v.dh ∧ v.dh ≤ 16384
    ∧ v.dx + v.dw ≤ 16384 ∧ v.dy + v.dh ≤ 16384 ∧ v.surface ≤ 255 ∧ v.sx ≤ 4095 ∧ v.sy ≤ 4095
    ∧ 1 ≤ v.sw ∧ v.sw ≤ 4096 ∧ 1 ≤ v.sh ∧ v.sh ≤ 4096 ∧ v.fadeIn ≤ 255 ∧ v.fadeOut ≤ 255 ∧ v.runLength ≤ 65535
    ∧ v.cellRate ≤ 255 ∧ v.firstCell ≤ 63 ∧ v.cellMode ≤ 2

/-- The group is NOMINATED or IN_DOUBT (R44). -/
def GroupState.Locks (g : GroupState) : Prop := ∃ f, g = .nominated f ∨ g = .inDoubt f

/-- A word counted now brings lock_run to this value (R104). -/
def State.CountsTo (s : State) (w : SyncWord) (run : Nat) : Prop :=
  ((s.csu.lockRun = 0 ∨ ¬ ∃ f time, s.csu.lastCounted = some (f, time) ∧ w.frame = f + 1
      ∧ s.now - time < 3 * (Config.ticksPerSecond / s.rateNow.hertz)) → run = 1)
    ∧ (s.csu.lockRun ≠ 0 → (∃ f time, s.csu.lastCounted = some (f, time) ∧ w.frame = f + 1
      ∧ s.now - time < 3 * (Config.ticksPerSecond / s.rateNow.hertz)) → run = s.csu.lockRun + 1)

/-! ### What a sync word does to the groups -/

/-- R96, first three rows and the last, on a word that is not a CUT: `k` is `s` after the check, `previous` the frame of the word
before. A word in step changes nothing; after a missed word with the sequence as it was, the group held is abandoned; a sequence one
ahead whose last cut is the group held, readiness given, is that group's cut taken late; any other difference is reported and
adopted (entry 19 for the groups reported). -/
def State.Checked (s : State) (previous : Frame) (w : SyncWord) (k : State) : Prop :=
  let same := w.cutSequence = s.csu.cutSequence
  let late := fun (h : GroupId) (f : Frame) => w.cutSequence = s.csu.cutSequence + 1 ∧ w.lastCut = some (h, f)
    ∧ (∃ n, s.groupState h = .nominated n) ∧ s.csu.readinessGiven = true
  (same → (∀ h n, s.groupState h ≠ .nominated n) ∨ w.frame = previous + 1 → k = s)
    ∧ (∀ h n, same → w.frame ≠ previous + 1 → s.groupState h = .nominated n → k = s.executeAbandon h)
    ∧ (∀ h f, late h f → k = s.executeCut h f)
    ∧ (¬ same → (∀ h f, ¬ late h f) → k = { s with
        csu := { s.csu with cutSequence := w.cutSequence, lastCut := w.lastCut }
        evb := s.told (.desync .sequence w.frame w.cutSequence s.csu.cutSequence []) })

/-- R97: `m` is `k` after a NOMINATE word of `g`: the group is NOMINATED and its preparation begins; or, where the part still holds a
group, the nomination is refused and reported, and RDY is held for it (entry 19 for the groups reported). -/
def State.Nominates (k : State) (g : GroupId) (w : SyncWord) (m : State) : Prop :=
  ((∀ h, ¬ (k.groupState h).Locks) → m = { k with
      groups := k.groups.set g { k.groups.get g with state := .nominated w.frame }
      csu := { k.csu with readinessGiven := false }
      cvb := k.cvb.begin k.held g })
    ∧ ∀ h, (k.groupState h).Locks → m = { k with
        csu := { k.csu with desyncHold := some g }
        evb := k.told (.desync .secondNomination w.frame w.cutSequence k.csu.cutSequence [g, h]) }

/-- R98: `m` is `k` after a CUT word of `g`: a sequence that is not one ahead is reported, and the group is cut in any case; the
word's sequence and last cut are the part's. -/
def State.CutsBy (k : State) (g : GroupId) (w : SyncWord) (m : State) : Prop :=
  ∃ c : State, c = State.executeCut g w.frame
      (if w.cutSequence = k.csu.cutSequence + 1 then k
        else { k with evb := k.told (.desync .sequence w.frame w.cutSequence k.csu.cutSequence [g]) })
    ∧ m = { c with csu := { c.csu with cutSequence := w.cutSequence, lastCut := w.lastCut } }

/-- R99: `m` is `k` after an ABANDON word of `g`: the group is abandoned where it is NOMINATED; where it is the one whose nomination was
refused, the group held is; in every other case nothing happens. -/
def State.AbandonsBy (k : State) (g : GroupId) (m : State) : Prop :=
  ((∃ n, k.groupState g = .nominated n) → m = k.executeAbandon g)
    ∧ (∀ h, k.groupState g = .idle → k.csu.desyncHold = some g → (k.groupState h).Locks → m = k.executeAbandon h)
    ∧ ((∀ n, k.groupState g ≠ .nominated n) →
        k.groupState g ≠ .idle ∨ k.csu.desyncHold ≠ some g ∨ (∀ h, ¬ (k.groupState h).Locks) → m = k)

/-- The group record after an abandon (R85), and after a cut at `f` (R83). -/
def GroupRec.ended (r : GroupRec) : Option Frame → GroupRec
  | none => { r with state := .idle, abandons := r.abandons + 1 }
  | some f => { r with state := .idle, lastCutFrame := some f, cuts := r.cuts + 1 }

/-! ### One port's boundary -/

/-- The cell of R130 that values show at an age, of the surface they name. -/
def State.cellOf (s : State) (v : Values) (age : Nat) : Nat :=
  cellAt v (match (s.surface v.surface).desc with | some d => d.cells | none => 1) age

/-- `u` is `s` after port `t` has taken a boundary alone and has no frame to send: the port is `p`, the frame kind NONE with the level
and the temperature in force, the waiting fetch cancelled and the formed line dropped (R147, R155 to R160). -/
def State.PortClosed (s : State) (t : TileId) (p : Port) (u : State) : Prop :=
  u = { s with
      ports := s.ports.set t p
      frames := s.frames.set t (u.frames.get t)
      cmp := s.cmp.set t { s.cmp.get t with formed := none }
      fsc := { s.fsc with
        fetches := s.fsc.fetches.set t none, burst := s.fsc.burst.map (Burst.cancelledFor t)
        serving := if s.fsc.serving = some t then none else s.fsc.serving }
      evb := u.evb }
    ∧ (u.frames.get t).kind = .none ∧ (u.frames.get t).entries = [] ∧ (u.frames.get t).temperature = p.temperature
    ∧ (u.frames.get t).level = (if p.temperature = .hot then min (s.tiles.get t).level 128 else (s.tiles.get t).level)

/-! ### Changes of the ports' states -/

/-- A port stands in another state in `u` than in `s`. -/
def State.PortChanges (s u : State) (t : TileId) : Prop := (u.ports.get t).state.name ≠ (s.ports.get t).state.name

/-- The event block of `u` holds TILE_CHANGE with the mask it had in `s` and the tile of every port that has changed state, wherever
one has (R151, R188). -/
def State.ChangesMasked (s u : State) : Prop :=
  ∀ t, s.PortChanges u t → ∃ r, u.evb.flags.get 6 = some r
    ∧ ∀ k : Fin 16, r.mask.getLsbD k.val = true ↔
        s.PortChanges u k ∨ ∃ q, s.evb.flags.get 6 = some q ∧ q.mask.getLsbD k.val = true

/-! ### Invariants -/

/-- A property that every step keeps. -/
def StepKeeps (P : State → Prop) : Prop := ∀ s t, P s → step s = .next t → P t

/-- The frame store's contents are in canonical form, and every byte of them lies inside the strapped store (R20, R25). -/
def State.MemoryInv (s : State) : Prop :=
  Memory.wf s.store ∧ ∀ c ∈ s.store, c.1 < storePages s.clc.straps.store * pageBytes

/-- The number of placement slots that name a surface (R32). -/
def State.slotCount (s : State) (i : SurfaceId) : Nat := (s.ptab.rows.flatMap Placement.slots).count i

/-- Every reference_count equals the number of slots that name the surface, and a surface that is named is LOADING or READY (R32,
R33, R52). -/
def State.RefsInv (s : State) : Prop :=
  (∀ i, (s.sdir.get i).refs = s.slotCount i) ∧ ∀ i, s.surface i = .empty → s.slotCount i = 0

/-- No page belongs to two records that are LOADING or READY, and all their pages lie inside the strapped store (R25). -/
def State.PagesInv (s : State) : Prop :=
  (∀ i j a b, i ≠ j → (s.surface i).desc = some a → (s.surface j).desc = some b →
    ∀ page, ¬((a.basePage ≤ page ∧ page < a.basePage + a.pageCount)
      ∧ (b.basePage ≤ page ∧ page < b.basePage + b.pageCount)))
  ∧ ∀ i d, (s.surface i).desc = some d → d.basePage + d.pageCount ≤ storePages s.clc.straps.store

/-- A set of values is drawn from inside a surface of this description: the source rectangle lies in a cell, and the steps are those of
R40 (R45). -/
def Values.FitsIn (v : Values) (d : Desc) : Prop :=
  1 ≤ v.dw ∧ 1 ≤ v.dh ∧ 1 ≤ v.sw ∧ 1 ≤ v.sh ∧ 1 ≤ d.cells
    ∧ v.stepX = v.sw * 65536 / v.dw ∧ v.stepY = v.sh * 65536 / v.dh
    ∧ v.sx + v.sw ≤ d.width ∧ v.sy + v.sh ≤ d.height / d.cells

/-- The sets of values a record holds: its own and those of a pending REPLACE (R38, R41). -/
def Placement.valueSets : Placement → List Values
  | .free => []
  | .staged _ v => [v]
  | .live _ v _ _ (some (.replace new _)) => [v, new]
  | .live _ v _ _ _ => [v]
  | .fading _ v _ _ _ => [v]

/-- The bytes in the strapped store (R20). -/
def State.storeBytes (s : State) : Nat := storePages s.clc.straps.store * 4096

/-- An upload write goes with the UPLOAD that executes; its remaining bytes lie inside the strapped store; a load burst in progress
moves its next bytes; and an executing UPLOAD takes no more than its surface still lacks, nor has any surface more than its bytes
(R25, R27, R28, R137, R143). -/
def State.UploadInside (s : State) : Prop :=
  (∀ u, s.fsc.upload = some u → u.startByte + 256 * u.bursts + u.data.length ≤ s.storeBytes
      ∧ ∃ e i taken, s.clc.executing = some e ∧ e.job = .upload i taken)
    ∧ (∀ b, s.fsc.burst = some b → b.kind = .load → ∃ u, s.fsc.upload = some u ∧ b.length = min 256 u.data.length)
    ∧ (∀ e i taken d loaded, s.clc.executing = some e → e.job = .upload i taken → s.surface i = .loading d loaded →
        loaded + taken ≤ d.totalBytes)
    ∧ ∀ i d loaded, s.surface i = .loading d loaded → loaded ≤ d.totalBytes

/-- Everything the frame store controller moves lies inside the strapped store (R25, R135, R137): the burst in progress, the runs of
every waiting fetch, the remaining bytes of the upload write; and so does what later fetches are made from: the values of every
record fit the surface they name, and the entries of every frame in progress fit the surface they were taken from. -/
def State.TransfersInv (s : State) : Prop :=
  s.RefsInv ∧ s.PagesInv ∧ s.UploadInside
    ∧ (∀ b, s.fsc.burst = some b → b.address + b.length ≤ s.storeBytes)
    ∧ (∀ t g, s.fsc.fetches.get t = some g → ∀ r ∈ g.runs, r.1 + r.2 ≤ s.storeBytes)
    ∧ (∀ i, ∀ v ∈ (s.ptab.get i).valueSets, ∃ d, (s.surface v.surface).desc = some d ∧ v.FitsIn d)
    ∧ ∀ t, ∀ e ∈ (s.frames.get t).entries, ∃ d, e.desc = some d ∧ e.values.FitsIn d ∧ e.cell < d.cells
        ∧ d.basePage + d.pageCount ≤ storePages s.clc.straps.store

/-- What the master's group records, due queue and nomination record say of one another (R65, R73, R90). -/
def State.MasterGroups (s : State) : Prop :=
  s.csu.sync = .locked ∧ (∀ g f, s.groupState g ≠ .inDoubt f) ∧ s.due.Nodup
    ∧ (∀ g, g ∈ s.due ↔ s.groupState g = .due)
    ∧ ∀ g f, s.groupState g = .nominated f ↔ s.csu.nomination = some (g, f)

/-- What a slave's group records say (R65, R73, R90, R105). -/
def State.SlaveGroups (s : State) : Prop :=
  s.due = [] ∧ s.csu.nomination = none ∧ (∀ g, s.groupState g ≠ .armed ∧ s.groupState g ≠ .due)
    ∧ (∀ g f, s.groupState g = .nominated f → s.csu.sync = .locked)
    ∧ ∀ g f, s.groupState g = .inDoubt f → s.csu.sync = .lost

/-- At most one group is NOMINATED or IN_DOUBT in the part; on the master the due queue holds exactly the DUE groups without
duplicates, on a slave it is empty (R65, R73, R77). -/
def State.GroupsInv (s : State) : Prop :=
  (∀ g h, (s.groupState g).holdsRecords = true → (s.groupState h).holdsRecords = true → g = h)
    ∧ (s.clc.straps.role = .master → s.MasterGroups) ∧ (s.clc.straps.role = .slave → s.SlaveGroups)

/-- A coverage list holds at most 12 ids without duplicates (R112). -/
def Coverage.Bounded (c : Coverage) : Prop := c.ids.length ≤ 12 ∧ c.ids.Nodup

/-- Each id of a list names a record that `view` gives values whose destination meets the tile's rectangle, and the ids stand in
composition order (R112, R113). -/
def State.Names (s : State) (t : TileId) (view : Placement → Option Values) (ids : List PlacementId) : Prop :=
  (∀ i ∈ ids, ∃ v r, view (s.ptab.get i) = some v ∧ s.held.rects.get t = some r ∧ v.destination.intersects r = true)
    ∧ ids.Pairwise fun i j => ∀ v w, view (s.ptab.get i) = some v → view (s.ptab.get j) = some w →
      composedBefore (i, v) (j, w)

/-- The coverage lists are in order (R112, R119): at most 12 ids each without duplicates; a tile with no held visible rectangle has an
empty active list, count 0 and no shadow list; no shadow list without a preparation; the preparation is that of the group NOMINATED
or IN_DOUBT; the ids of an active list name LIVE and FADING records that meet the tile, in composition order, and those of a valid
shadow list do so in the post-cut view. -/
def State.ListsInv (s : State) : Prop :=
  s.GroupsInv
    ∧ (∀ t, (s.cvb.active.get t).Bounded) ∧ (∀ t c, s.cvb.shadow.get t = some c → c.Bounded)
    ∧ (∀ t, s.held.rects.get t = none → s.cvb.active.get t = ⟨[], 0⟩ ∧ s.cvb.shadow.get t = none)
    ∧ (s.cvb.prep = .none → ∀ t, s.cvb.shadow.get t = none)
    ∧ (∀ g, s.cvb.prep.group = some g → (s.groupState g).holdsRecords = true)
    ∧ (∀ t, s.Names t Placement.shown (s.cvb.active.get t).ids)
    ∧ ∀ g t c, s.cvb.prep = .complete g → s.cvb.shadow.get t = some c → s.Names t (postCutValues g) c.ids

/-- What the release of RDY says of the part (R100, but for the age of the last word, which acts at WORD_OVERDUE). -/
def State.ReadyToCut (s : State) : Prop :=
  s.phase = .running ∧ s.csu.sync = .locked ∧ s.csu.desyncHold = none
    ∧ ∃ g f, s.groupState g = .nominated f ∧ s.cvb.prep = .complete g
      ∧ ∀ i ∈ s.neededSurfaces g, (s.surface i).isReady = true

/-- On a slave, the last word it took arrived no more than two periods of its own timing ago; a master needs no word (R100). -/
def State.WordIsFresh (s : State) : Prop :=
  s.clc.straps.role = .slave →
    ∃ since, s.csu.lossTimer = some since ∧ s.now - since ≤ 2 * (Config.ticksPerSecond / s.rateNow.hertz)

/-- A step from `s` that ends in `t` has re-tested RDY: the drive follows the conditions of R100 as `t` meets them, a release marks that
readiness was given, and nothing else of the chain state has moved (R100, R101). -/
def State.RetestedAs (s t : State) : Prop :=
  (s.GroupsInv → (t.csu.rdyReleased = true ↔ t.ReadyToCut ∧ t.WordIsFresh))
    ∧ t.csu = { s.csu with
        rdyReleased := t.csu.rdyReleased, readinessGiven := s.csu.readinessGiven || t.csu.rdyReleased }

/-- A part that releases RDY is ready to cut, has given readiness, and its reference counts and groups are in order (R33, R100). -/
def State.RdyInv (s : State) : Prop :=
  s.RefsInv ∧ s.GroupsInv
    ∧ (s.csu.rdyReleased = true → s.ReadyToCut ∧ s.csu.readinessGiven = true)

/-- The ranges of the port record, the tile record and the underrun count (R146, R150, R151); a port that is neither UP nor DRAINING
has the frame kind NONE (R151, column "What the tile is sent"). -/
def State.PortsInv (s : State) : Prop :=
  (∀ t, (s.ports.get t).missed ≤ 3) ∧ (∀ t a n, (s.ports.get t).state = .training a n → 1 ≤ a ∧ a ≤ 3 ∧ n ≤ 6)
    ∧ (∀ t, (s.tiles.get t).level ≤ 256)
    ∧ (∀ t, 50 ≤ (s.tiles.get t).warmUp ∧ (s.tiles.get t).warmUp ≤ 1000 ∧ (s.tiles.get t).warmUp % 10 = 0)
    ∧ (∀ t, (s.frames.get t).level ≤ 256) ∧ (∀ t, (s.cmp.get t).underruns ≤ 65535)
    ∧ ∀ t, (s.ports.get t).state ≠ .up → (∀ stage r, (s.ports.get t).state ≠ .draining stage r) →
        (s.frames.get t).kind = .none

end Sys2Proof.Machine
end

