-- ==== Sys2Proof/Certificates/Slice0/Obligations.lean ====
section
/-! DEFINITION. The statements: what the rules of the spec say the part does, each over every state and every operand it names. The words
they use (Takes, replied, Locks, the invariants) are defined in Safety.lean. -/

open Sys2Proof Sys2Proof.Machine

/-! ### The queue and the command link -/

/-- A step takes the command at the front of the queue and is what the command does with the queue's rest; on an empty queue one
clock tick passes (the model's choice, entry 28). -/
def Obligations.StepRunsFrontCommand : Prop :=
  (∀ (c : Instr) (rest : List Instr) (s : State), step { s with pending := c :: rest } = exec c { s with pending := rest })
    ∧ ∀ s : State, step { s with pending := [] } = .next { s with pending := [], now := s.now + 1 }

/-- Every row, with any operands and in any state, answers a next state and leaves the queue as it is; alone the end of a burst
outside the strapped store faults (entry 5). -/
def Obligations.EveryRowCompletes : Prop :=
  ∀ (c : Instr) (s : State),
    (∃ t, exec c s = .next t ∧ t.pending = s.pending)
      ∨ ((c = .burstEnd ∨ c = .uploadComplete) ∧ ∃ b, s.fsc.burst = some b
          ∧ storePages s.clc.straps.store * 4096 < b.address + b.length ∧ exec c s = .fault (.outsideStore b.address))

/-- Every command whose fields fit its payload is read back from the payload bytes written for it. -/
def Obligations.PayloadReadsBack : Prop :=
  ∀ c : HostCmd, c.wellFormed = true → parseCommand c.code c.payload = some c ∧ lengthTaken c.code c.payload.length = true

/-- The frame written for a command, sent as a write transfer, does what the command's own row does. -/
def Obligations.FrameIsItsCommand : Prop :=
  ∀ (unit : Nat) (c : HostCmd) (s : State), unit < 256 → c.wellFormed = true →
    exec (.commandFrame (encodeFrame unit c)) s = exec (c.toInstr unit) s

/-- Every sync word is read back from the fourteen bytes written for it, whatever the bytes hold that are not meaningful. -/
def Obligations.SyncWordReadsBack : Prop :=
  ∀ w : SyncWord, w.bytes.length = 14 ∧ parseSyncWord w.bytes = some w

/-- A word whose check byte or whose kind, group, cut sequence, last-cut group or flag is out of place changes nothing on a slave,
in any state; every word formed has a correct check. A master does not read FSYNC. -/
def Obligations.BadWordsDoNotArrive : Prop :=
  (∀ (bytes : List Byte) (s : State), s.clc.straps.role = .slave → bytes.length = 14 →
    (∀ b : Fin 14 → Byte, bytes = List.ofFn b →
      (b 13 ≠ b 0 + b 1 + b 2 + b 3 + b 4 + b 5 + b 6 + b 7 + b 8 + b 9 + b 10 + b 11 + b 12
        ∨ 3 < (b 0).toNat ∨ 7 < (b 1).toNat ∨ 15 < (b 6).toNat ∨ (8 ≤ (b 7).toNat ∧ (b 7).toNat ≤ 254)
        ∨ 1 < (b 12).toNat) →
      exec (.syncWordArrival bytes) s = .next s))
  ∧ (∀ (bytes : List Byte) (s : State), s.clc.straps.role = .master → exec (.syncWordArrival bytes) s = .next s)
  ∧ ∀ w : SyncWord, ∃ check, w.bytes = w.body ++ [check] ∧ check = w.body.foldl (· + ·) 0

/-- A frame of fewer than four bytes, any frame in STARTING and a frame for another unit change nothing; a frame for this part
while a command executes is discarded, reported and marks the command; of any other frame the first failing one of tests 1 to 5
gives the result, and nothing but the link changes. The frame of a broadcast POLL alone, dropped or discarded, also moves GIN
(`State.hears`, entry 40). (That a refused frame drops the waiting response and the POLL answer is read from R178 beside R179 by
inference: entry 18.) -/
def Obligations.FramesReceived : Prop :=
  ((∀ (bytes : List Byte) (s : State), bytes.length < 4 → exec (.commandFrame bytes) s = .next s)
  ∧ (∀ (bytes : List Byte) (s : State), s.phase = .starting → exec (.commandFrame bytes) s = .next (s.hears bytes))
  ∧ (∀ (bytes : List Byte) (s : State), s.hears bytes =
      if bytes = [15, 32, 0, 0] then
        { s with pins := s.pins.ginAfterPoll (Config.goutBeforeStays s.freeCount), freeCount := s.freeCount + 1 }
      else s)
  ∧ (∀ (unit code l0 l1 : Byte) (rest : List Byte) (s : State),
      unit.toNat ≠ s.clc.straps.unit.val → unit.toNat ≠ 15 →
      exec (.commandFrame (unit :: code :: l0 :: l1 :: rest)) s = .next s)
  ∧ ∀ (unit code l0 l1 : Byte) (rest : List Byte) (s : State) (e : Executing),
      s.phase ≠ .starting → unit.toNat = s.clc.straps.unit.val ∨ unit.toNat = 15 → s.clc.executing = some e →
      exec (.commandFrame (unit :: code :: l0 :: l1 :: rest)) s = .next { s.hears (unit :: code :: l0 :: l1 :: rest) with
        clc := { s.clc with executing := some { e with overrun := true } }
        evb := s.evb.record (.linkOverrun unit.toNat code.toNat) })
  ∧ (∀ (unit code l0 l1 : Byte) (rest : List Byte) (s : State) (status : Status),
    s.phase ≠ .starting → s.clc.executing = none → unit.toNat = s.clc.straps.unit.val ∨ unit.toNat = 15 →
    s.frameTests unit.toNat code.toNat (l0.toNat + 256 * l1.toNat) rest.length = some status →
    exec (.commandFrame (unit :: code :: l0 :: l1 :: rest)) s
      = .next { s with
          clc := s.answered unit.toNat code.toNat (unit :: code :: l0 :: l1 :: rest) status .empty })

/-- What a read transfer finds on the response data line, and what collecting an answer leaves; the bytes sent: the NOT_READY byte
255, which is no status code, also where no part drives the line, or the response frame with its header. (That a read released early
keeps the POLL answer is read by inference: entry 30. The bytes of a payload that is not empty are a free value: entry 8.) -/
def Obligations.ReadsAnswered : Prop :=
  (∀ (s : State) (complete : Bool), s.phase = .starting ∨ s.clc.executing ≠ none ∨ s.clc.response = none →
    exec (.readTransfer s.clc.straps.unit.val complete) s = .next { s with clc := { s.clc with readOut := .notReady } })
  ∧ (∀ (s : State) (complete : Bool) (r : Response),
      s.phase ≠ .starting → s.clc.executing = none → s.clc.response = some r →
      exec (.readTransfer s.clc.straps.unit.val complete) s = .next { s with clc := { s.clc with
        readOut := .frame r
        response := if complete then none else some r } })
  ∧ (∀ (s : State) (complete : Bool) (a : PollAnswer), s.clc.pollAnswer = some a →
      exec (.readTransfer 15 complete) s = .next { s with clc := { s.clc with
        readOut := .frame ⟨.ok, 32, false, .poll a⟩
        pollAnswer := if complete then none else some a } })
  ∧ (∀ (s : State) (complete : Bool), s.clc.pollAnswer = none →
      exec (.readTransfer 15 complete) s = .next { s with clc := { s.clc with readOut := .idleLine } })
  ∧ (∀ (s : State) (complete : Bool) (unit : Nat), unit ≠ s.clc.straps.unit.val → unit ≠ 15 →
      exec (.readTransfer unit complete) s = .next { s with clc := { s.clc with readOut := .idleLine } })
  ∧ ReadOut.notReady.bytes = [255] ∧ ReadOut.idleLine.bytes = [255] ∧ (∀ status : Status, status.code ≠ 255)
  ∧ ∀ r : Response, ∃ low high : Byte,
      (ReadOut.frame r).bytes = BitVec.ofNat 8 r.status.code :: BitVec.ofNat 8 r.code :: (if r.overrun then 1 else 0)
        :: low :: high :: r.payload.bytes
      ∧ (r.payload.bytes.length < 65536 → low.toNat + 256 * high.toNat = r.payload.bytes.length)
      ∧ (r.payload = .empty → r.payload.bytes = [])

/-- A POLL that is taken leaves the part awaiting the grant; one that is not, in STARTING or while a command executes, leaves the
grant state. The grant's arrival is answered by a part that wants attention or ends the chain, is passed on by any other part that
awaits it, and changes nothing but GIN in a part that does not. A part drives GOUT as GIN reads while it passes the grant and
releases it otherwise. GIN reads asserted always in the first part of the chain, where it is tied; in any other part from the
grant's arrival on, and a POLL never asserts it. (Whether a POLL on the link releases it there is a free value, since the part
before may not take the POLL: entry 40.) -/
def Obligations.PollFindsAttention : Prop :=
  (∀ s : State, s.Takes 15 32 →
    exec (.poll 15) s = .next (State.replied
      { s with
        pins := s.pins.ginAfterPoll (Config.goutBeforeStays s.freeCount)
        freeCount := s.freeCount + 1
        clc := { s.clc with grant := .awaiting } } 15 .poll .ok .empty))
  ∧ (∀ s : State, s.phase = .starting →
      exec (.poll 15) s = .next { s with
        pins := s.pins.ginAfterPoll (Config.goutBeforeStays s.freeCount)
        freeCount := s.freeCount + 1 })
  ∧ (∀ (s : State) (e : Executing), s.phase ≠ .starting → s.clc.executing = some e →
      exec (.poll 15) s = .next { s with
        pins := s.pins.ginAfterPoll (Config.goutBeforeStays s.freeCount)
        freeCount := s.freeCount + 1
        clc := { s.clc with executing := some { e with overrun := true } }
        evb := s.evb.record (.linkOverrun 15 32) })
  ∧ (∀ s : State, s.clc.grant = .awaiting → (∃ i, (s.evb.flags.get i).isSome = true ∧ s.evb.enables.get i = true) →
      exec .grantArrival s = .next { s with
        pins := s.pins.ginRisen
        clc := { s.clc with
          grant := .holding
          pollAnswer := some (.flags s.clc.straps.unit (Table.ofFn fun i => (s.evb.flags.get i).isSome)) } })
  ∧ (∀ s : State, s.clc.grant = .awaiting → (∀ i, (s.evb.flags.get i).isSome = true → s.evb.enables.get i = false) →
      exec .grantArrival s = .next { s with
        pins := s.pins.ginRisen
        clc :=
          if s.clc.straps.chainEnd then { s.clc with grant := .holding, pollAnswer := some .none }
          else { s.clc with grant := .passing } })
  ∧ (∀ s : State, s.clc.grant ≠ .awaiting → exec .grantArrival s = .next { s with pins := s.pins.ginRisen })
  ∧ (∀ s : State, (s.clc.grant = .passing → s.goutAsserted = s.pins.ginReads) ∧ (s.clc.grant ≠ .passing → s.goutAsserted = false))
  ∧ (∀ (p : Pins) (stays : Bool), p.gin = .tied → p.ginReads = true ∧ p.ginRisen = p ∧ p.ginAfterPoll stays = p)
  ∧ ∀ (p : Pins) (stays asserted : Bool), p.gin = .driven asserted →
      p.ginReads = asserted ∧ p.ginRisen = { p with gin := .driven true }
        ∧ p.ginAfterPoll stays = { p with gin := .driven (asserted && stays) }

/-! ### The part as a whole -/

/-- IDENTIFY and STATUS answer with the part as it stands and change nothing but the link (STATUS also the count of the RDY
readings that are free values, entry 9). -/
def Obligations.IdentifyAndStatusAnswer : Prop :=
  (∀ (s : State) (unit : Nat), s.Takes unit 1 →
    exec (.identify unit) s = .next (s.replied unit .identify .ok (.identity ⟨17, 16, Config.revision, s.clc.straps⟩)))
  ∧ ∀ (s : State) (unit : Nat), s.Takes unit 2 →
    exec (.status unit) s = .next (State.replied { s with freeCount := s.freeCount + 1 } unit .status .ok (.status {
      phase := s.phase
      rate := s.rate
      straps := s.clc.straps
      lastBroadcast := s.clc.lastBroadcast
      sync := s.csu.sync
      frame := s.csu.frame
      cutSequence := s.csu.cutSequence
      lastCut := s.csu.lastCut
      nomination := s.csu.nomination
      heldGroup := (List.finRange 8).find? fun g => (s.groupState g).holdsRecords
      readinessGiven := s.csu.readinessGiven
      desyncHold := s.csu.desyncHold
      rdyReleased := s.csu.rdyReleased
      rdyLineReleased := s.csu.rdyReleased && Config.othersReleaseRdy s.freeCount
      prep := s.cvb.prep
      pacing := s.fsc.pacing
      uploadBytesLeft := s.fsc.upload.map fun u => u.data.length
      budget := s.fsc.budget
      cue := s.cbi.cue
      inversion := s.cbi.inversion
      blackoutInput := s.cbi.input
      blackoutMode := s.cbi.mode
      latch := s.cbi.latch
      blackoutState := s.cbi.state
      blackoutFlag := s.csu.blackoutFlag
      flagsSet := Table.ofFn fun i => (s.evb.flags.get i).isSome
      enables := s.evb.enables
      wantsAttention := (List.finRange 16).any fun i => (s.evb.flags.get i).isSome && s.evb.enables.get i }))

/-- EVENTS returns every set flag and clears them in the same step, so that a report taken after it sets its flag afresh;
SET_EVENT_ENABLES writes all sixteen enables and leaves the flags, or writes none; enabling a set flag makes the part want
attention at once. -/
def Obligations.EventsReturnedAndCleared : Prop :=
  (∀ (s : State) (unit : Nat), s.Takes unit 30 →
    exec (.events unit) s = .next (State.replied { s with evb := { s.evb with flags := Table.replicate 16 none } }
      unit .events .ok (.events ((List.finRange 16).filterMap fun i => (s.evb.flags.get i).map fun r =>
        ⟨i, r.detail, r.repeats, if i.val ∈ [6, 7, 8, 12] then some r.mask else none⟩))))
  ∧ (∀ (s : State) (unit : Nat) (marks : Table Nat 16), s.Takes unit 31 → (∀ i, marks.get i ≤ 1) →
      exec (.setEventEnables unit marks) s = .next (State.replied
        { s with evb := { s.evb with enables := Table.ofFn fun i => decide (marks.get i = 1) } }
        unit (.setEventEnables marks) .ok .empty))
  ∧ (∀ (s : State) (unit : Nat) (marks : Table Nat 16), s.Takes unit 31 → (∃ i, 1 < marks.get i) →
      exec (.setEventEnables unit marks) s = .next (s.replied unit (.setEventEnables marks) .badValue .empty))
  ∧ (∀ (s : State) (unit : Nat), s.Takes unit 30 → (∀ i, s.evb.flags.get i = none) →
      exec (.events unit) s = .next (State.replied { s with evb := { s.evb with flags := Table.replicate 16 none } }
        unit .events .ok (.events [])))
  ∧ (∀ (s t : State) (unit : Nat) (d : Detail), s.Takes unit 30 → exec (.events unit) s = .next t →
      (t.report d).evb.flags.get d.flag = some ⟨d, 1, d.maskBit⟩)
  ∧ ∀ (s : State) (unit : Nat) (marks : Table Nat 16) (i : Fin 16) (t : State), s.Takes unit 31 → (∀ j, marks.get j ≤ 1) →
      marks.get i = 1 → (s.evb.flags.get i).isSome = true → exec (.setEventEnables unit marks) s = .next t →
      t.wantsAttention = true

/-- A report sets its flag with count 1, or replaces the detail, advances the count to at most 255 and gathers the mask; it leaves
the other flags and the enables; in STARTING it is not taken. -/
def Obligations.ReportsGather : Prop :=
  (∀ (e : Evb) (d : Detail), e.flags.get d.flag = none → (e.record d).flags.get d.flag = some ⟨d, 1, d.maskBit⟩)
  ∧ (∀ (e : Evb) (d : Detail) (r : FlagRec), e.flags.get d.flag = some r →
      (e.record d).flags.get d.flag = some ⟨d, min 255 (r.repeats + 1), r.mask ||| d.maskBit⟩)
  ∧ (∀ (e : Evb) (d : Detail) (i : Fin 16), i ≠ d.flag → (e.record d).flags.get i = e.flags.get i)
  ∧ (∀ (e : Evb) (d : Detail), (e.record d).enables = e.enables)
  ∧ (∀ (s : State) (d : Detail), s.report d = { s with evb := s.told d })
  ∧ (∀ (t : TileId) (a b : PortName) (n : Option Nat) (f : Frame) (l : Nat) (c : CueId) (x : Direction),
      (∀ k : Fin 16, (Detail.tileChange t a b n f).maskBit.getLsbD k.val = decide (k = t))
        ∧ (∀ k : Fin 16, (Detail.tileHot t f).maskBit.getLsbD k.val = decide (k = t))
        ∧ (∀ k : Fin 16, (Detail.underrun t f l).maskBit.getLsbD k.val = decide (k = t))
        ∧ ∀ k : Fin 16, (Detail.cue c x).maskBit.getLsbD k.val = decide (k.val = c.val))

/-- STOP enters CONFIG and drops the part's release of RDY; SET_TIMING stores one of the five rates, or refuses. -/
def Obligations.StopAndSetTiming : Prop :=
  (∀ (s : State) (unit : Nat), s.Takes unit 7 →
    exec (.stop unit) s = .next (State.replied
      { s with phase := .config, csu := { s.csu with rdyReleased := false } } unit .stop .ok .empty))
  ∧ (∀ (s : State) (unit hertz : Nat) (r : Rate), s.Takes unit 3 →
      (hertz, r) ∈ [(24, Rate.hz24), (25, .hz25), (30, .hz30), (50, .hz50), (60, .hz60)] →
      exec (.setTiming unit hertz) s = .next (State.replied { s with rate := r } unit (.setTiming hertz) .ok .empty))
  ∧ ∀ (s : State) (unit hertz : Nat), s.Takes unit 3 → hertz ∉ [24, 25, 30, 50, 60] →
      exec (.setTiming unit hertz) s = .next (s.replied unit (.setTiming hertz) .badValue .empty)

/-- SET_GEOMETRY and SET_TILE write all their fields or none; RUNNING refuses both. (That a frame refused for the phase drops the
waiting response and the POLL answer is read by inference: entry 18.) -/
def Obligations.GeometryCommands : Prop :=
  (∀ (s : State) (unit w h gx gy : Nat), s.Takes unit 4 →
    exec (.setGeometry unit w h gx gy) s = .next (
      if 16 ≤ w ∧ w ≤ 4096 ∧ 16 ≤ h ∧ h ≤ 4096 ∧ gx ≤ 1023 ∧ gy ≤ 1023 then
        State.replied { s with geo := ⟨w, h, gx, gy⟩ } unit (.setGeometry w h gx gy) .ok .empty
      else s.replied unit (.setGeometry w h gx gy) .badValue .empty))
  ∧ (∀ (s : State) (unit : Nat) (t : TileId) (placed column row : Nat) (trimX trimY : Int), s.Takes unit 5 →
      exec (.setTile unit t.val placed column row trimX trimY) s = .next (
        if column ≤ 31 ∧ row ≤ 31 ∧ -8 ≤ trimX ∧ trimX ≤ 7 ∧ -8 ≤ trimY ∧ trimY ≤ 7 then
          State.replied { s with tiles := s.tiles.set t { s.tiles.get t with
            placed := decide (placed ≠ 0), column := column, row := row, trimX := trimX, trimY := trimY } }
            unit (.setTile t.val placed column row trimX trimY) .ok .empty
        else s.replied unit (.setTile t.val placed column row trimX trimY) .badValue .empty))
  ∧ (∀ (s : State) (unit tile placed column row : Nat) (trimX trimY : Int), s.Takes unit 5 → 16 ≤ tile →
      exec (.setTile unit tile placed column row trimX trimY) s
        = .next (s.replied unit (.setTile tile placed column row trimX trimY) .badValue .empty))
  ∧ ∀ (s : State) (unit w h gx gy tile placed column row : Nat) (trimX trimY : Int),
      s.phase = .running → s.clc.executing = none → unit = s.clc.straps.unit.val ∨ unit = 15 →
      exec (.setGeometry unit w h gx gy) s = .next (s.replied unit (.setGeometry w h gx gy) .wrongPhase .empty)
        ∧ exec (.setTile unit tile placed column row trimX trimY) s
          = .next (s.replied unit (.setTile tile placed column row trimX trimY) .wrongPhase .empty)

/-- START tests every placed tile, lowest first, and is refused with the first offender and its first failing test, nothing
changed. Where all pass it replaces the held geometry, builds the active lists from the live set and begins a held preparation
again, and is executing; at its completion the part is RUNNING, RDY is
re-tested and the response is OK. (That the lists are built at START and the
phase changes at the completion is the model's choice, entry 24.) -/
def Obligations.StartTakesEffect : Prop :=
  (∀ (s : State) (unit : Nat) (t : TileId) (reason : GeometryReason), s.Takes unit 6 →
    (∀ u, u.val < t.val → s.TileFits u) → s.Offends t reason →
    exec (.start unit) s = .next (s.replied unit .start .geometry (.geometryFault t reason)))
  ∧ ((∀ (s : State) (unit : Nat), s.Takes unit 6 → (∀ t, s.TileFits t) →
    ∃ t, exec (.start unit) s = .next t
      ∧ t = { s with clc := s.nowExecuting unit 6 (encodeFrame unit .start) .start
                     held := t.held, cvb := t.cvb, csu := { s.csu with rdyReleased := false }, evb := t.evb }
      ∧ t.held.setting = s.geo
      ∧ (∀ i, t.held.rects.get i =
          if (s.tiles.get i).placed then some ⟨(s.tileOrigin i).1.toNat, (s.tileOrigin i).2.toNat, s.geo.panelW, s.geo.panelH⟩
          else none)
      ∧ (∀ i, t.cvb.active.get i = buildCoverage (t.held.rects.get i) (liveSet s.ptab))
      ∧ t.evb = (match (List.finRange 16).filter fun i => 0 < (t.cvb.active.get i).excluded with
          | [] => s.evb
          | i :: more => s.evb.record (.overcover (more.length + 1) i (t.cvb.active.get i).excluded))
      ∧ (s.cvb.prep = .none → t.cvb.prep = .none ∧ t.cvb.shadow = s.cvb.shadow)
      ∧ ∀ g, s.cvb.prep.group = some g →
          t.cvb.shadow = Table.replicate 16 none
            ∧ t.cvb.prep = if ∃ i, (s.tiles.get i).placed = true then .inFlight g else .complete g)
  ∧ ∀ (s : State) (e : Executing), s.clc.executing = some e → e.job = .start →
      ∃ t, exec .startComplete s = .next t
        ∧ t = { s with phase := .running, csu := t.csu, clc := { s.clc with
            executing := none
            response := if e.broadcast then s.clc.response else some ⟨.ok, e.code, e.overrun, .empty⟩
            lastBroadcast := if e.broadcast then some (e.code, .ok) else s.clc.lastBroadcast } }
        ∧ s.RetestedAs t)

/-- RST_KEEP, asserted and released, and SOFT_RESET leave what every chapter's reset table gives for them, and the release and
SOFT_RESET give STARTING its 2 ms; power-on and RST_ALL leave State.reset's values with the straps sampled at power-on and at the
release, the blackout input sampled and the store's contents undefined, and power-on and the release give STARTING its 40 ms. A
later end that an earlier reset gave stands. (That an assertion applies the values as a release does is the model's choice, entry
16. Read by inference: that missed is kept also where the port is neither UP nor LOST, entry 35, and that no fetch is being served once
the queue is emptied, entry 41.) -/
def Obligations.ResetsApply : Prop :=
  ((∀ (s : State) (unit : Nat), s.Takes unit 8 →
    ∃ t, exec (.softReset unit) s = .next t ∧ s.AfterKeepReset t ∧ t.pins = s.pins
      ∧ t.startingEnd = max s.startingEnd (s.now + 2 * Config.ticksPerMilli))
  ∧ (∀ s : State, s.pins.rstKeep = false →
    ∃ t, exec .rstKeepAssert s = .next t ∧ s.AfterKeepReset t ∧ t.pins = { s.pins with rstKeep := true }
      ∧ t.startingEnd = s.startingEnd)
  ∧ ∀ s : State, s.pins.rstKeep = true →
    ∃ t, exec .rstKeepRelease s = .next t ∧ s.AfterKeepReset t ∧ t.pins = { s.pins with rstKeep := false }
      ∧ t.startingEnd = max s.startingEnd (s.now + 2 * Config.ticksPerMilli))
  ∧ ((∀ (s : State) (straps : Straps) (inputs : InputLevels),
    exec (.powerOn straps inputs) s = .next (s.afterFullReset straps
      { s.pins with cue := inputs.cue, blackout := inputs.blackout, gin := inputs.gin }
      (max s.startingEnd (s.now + 40 * Config.ticksPerMilli))))
  ∧ (∀ s : State, s.pins.rstAll = false →
      exec .rstAllAssert s = .next (s.afterFullReset s.clc.straps { s.pins with rstAll := true } s.startingEnd))
  ∧ ∀ (s : State) (straps : Straps), s.pins.rstAll = true →
      exec (.rstAllRelease straps) s = .next (s.afterFullReset straps { s.pins with rstAll := false }
        (max s.startingEnd (s.now + 40 * Config.ticksPerMilli))))

/-- STARTING ends, where no reset input holds it, in CONFIG: the cues sampled after inversion, the pacing windows and the frame
timing begun; elsewhere the row does nothing (the model's choice: entry 6). -/
def Obligations.StartingEndsInConfig : Prop :=
  (∀ s : State, s.phase = .starting → s.pins.rstAll = false → s.pins.rstKeep = false →
    exec .startingEnd s = .next { s with
      now := max s.now s.startingEnd
      phase := .config
      cbi := { s.cbi with
        cue := Table.ofFn fun i => some (s.pins.cue.get i != s.cbi.inversion.get i)
        cueSampledAt := max s.now s.startingEnd }
      fsc := { s.fsc with
        budget := 20 * (s.fsc.pacing.val + 1), loadMark := false, waitMark := false, owed := false
        windowStart := max s.now s.startingEnd }
      csu := { s.csu with
        timing := true
        boundaryAt := if s.csu.timing then s.csu.boundaryAt else max s.now s.startingEnd
        rdyReleased := false } })
  ∧ ∀ s : State, s.phase ≠ .starting ∨ s.pins.rstAll = true ∨ s.pins.rstKeep = true → exec .startingEnd s = .next s

/-- The state right after power-on, as the reset tables of the chapters give it. -/
def Obligations.ResetValues : Prop :=
  let s := State.reset
  s.phase = .starting ∧ s.startingEnd = 40 * Config.ticksPerMilli ∧ s.pending = [] ∧ s.rate = .hz60
    ∧ s.geo = ⟨512, 512, 0, 0⟩ ∧ s.held.setting = s.geo ∧ (∀ t, s.held.rects.get t = none)
    ∧ (∀ t, s.tiles.get t = ⟨false, 0, 0, 0, 0, .black, ⟨0, 0, 0⟩, 256, 300⟩)
    ∧ (∀ t, (s.ports.get t).state = .off ∧ (s.ports.get t).missed = 0 ∧ (s.ports.get t).temperature = .ok)
    ∧ (∀ t, (s.frames.get t).kind = .none ∧ (s.frames.get t).level = 256)
    ∧ (∀ t, (s.cmp.get t).previous = none ∧ (s.cmp.get t).underruns = 0) ∧ s.bg = ⟨0, 0, 0⟩
    ∧ (∀ i, s.sdir.get i = ⟨.empty, 0⟩) ∧ s.store = [] ∧ (∀ i, s.ptab.get i = .free)
    ∧ (∀ g, s.groups.get g = ⟨.idle, .immediate, 30, none, 0, 0⟩) ∧ s.due = []
    ∧ s.csu.frame = 0 ∧ s.csu.sync = .locked ∧ s.csu.cutSequence = 0 ∧ s.csu.lastCut = none ∧ s.csu.nomination = none
    ∧ s.csu.readinessGiven = false ∧ s.csu.desyncHold = none ∧ s.csu.lockRun = 0 ∧ s.csu.lossTimer = none
    ∧ s.csu.rdyReleased = false ∧ s.csu.blackoutFlag = false ∧ s.csu.timing = false
    ∧ (Csu.powerOn .slave).sync = .unlocked
    ∧ (∀ t, s.cvb.active.get t = ⟨[], 0⟩ ∧ s.cvb.shadow.get t = none) ∧ s.cvb.prep = .none
    ∧ (∀ t, s.fsc.fetches.get t = none) ∧ s.fsc.upload = none ∧ s.fsc.burst = none ∧ s.fsc.pacing = 1 ∧ s.fsc.budget = 40
    ∧ s.fsc.loadMark = false ∧ s.fsc.waitMark = false
    ∧ (∀ c, s.cbi.cue.get c = none ∧ s.cbi.inversion.get c = false) ∧ s.cbi.mode = .off ∧ s.cbi.latch = false
    ∧ s.cbi.state = false ∧ (∀ i, s.evb.flags.get i = none ∧ s.evb.enables.get i = false)
    ∧ s.clc.rx = [] ∧ s.clc.executing = none ∧ s.clc.response = none ∧ s.clc.lastBroadcast = none
    ∧ s.clc.grant = .passing ∧ s.clc.pollAnswer = none

/-! ### Surfaces and placements -/

/-- DEFINE_SURFACE and DROP_SURFACE: the tests in order, the first failing one giving the refusal; a definition writes the record
in full as LOADING; a drop of a record that no slot names makes it EMPTY, and nothing else changes. -/
def Obligations.SurfacesDefinedAndDropped : Prop :=
  ((∀ (s : State) (unit id f w h c base : Nat) (key : Option Nat), s.Takes unit 9 → 256 ≤ id →
    exec (.defineSurface unit id f w h c base key) s
      = .next (s.replied unit (.defineSurface id f w h c base key) .badValue .empty))
  ∧ ∀ (s : State) (unit : Nat) (i : SurfaceId) (f w h c base : Nat) (key : Option Nat), s.Takes unit 9 →
    let cmd : HostCmd := .defineSurface i.val f w h c base key
    let d : Desc := ⟨if f = 0 then .full else .half, w, h, c, base, keyNamed f key⟩
    let total := w * (if f = 0 then 4 else 2) * h
    let inUse := s.surface i ≠ .empty ∧ 0 < (s.sdir.get i).refs
    let outside := storePages s.clc.straps.store < base + (total + 4095) / 4096
    (inUse → exec (.defineSurface unit i.val f w h c base key) s
      = .next (s.replied unit cmd .inUse (.references (s.sdir.get i).refs)))
    ∧ (¬ inUse → surfaceFieldsFail f w h c key ∨ outside → exec (.defineSurface unit i.val f w h c base key) s
      = .next (s.replied unit cmd .badValue .empty))
    ∧ (¬ inUse → ¬ surfaceFieldsFail f w h c key → ¬ outside → ∀ j e, j ≠ i → (s.surface j).desc = some e → d.Overlaps e →
        (∀ k x, k.val < j.val → k ≠ i → (s.surface k).desc = some x → ¬ d.Overlaps x) →
        exec (.defineSurface unit i.val f w h c base key) s = .next (s.replied unit cmd .overlap (.overlapping j)))
    ∧ (¬ inUse → ¬ surfaceFieldsFail f w h c key → ¬ outside →
        (∀ k x, k ≠ i → (s.surface k).desc = some x → ¬ d.Overlaps x) →
        exec (.defineSurface unit i.val f w h c base key) s = .next (State.replied
          { s with sdir := s.sdir.set i { s.sdir.get i with state := .loading d 0 } } unit cmd .ok
          (.defined ((total + 4095) / 4096) total))))
  ∧ ((∀ (s : State) (unit id : Nat), s.Takes unit 11 → 256 ≤ id →
    exec (.dropSurface unit id) s = .next (s.replied unit (.dropSurface id) .badValue .empty))
  ∧ ∀ (s : State) (unit : Nat) (i : SurfaceId), s.Takes unit 11 →
    (s.surface i = .empty →
      exec (.dropSurface unit i.val) s = .next (s.replied unit (.dropSurface i.val) .noSuch .empty))
    ∧ (s.surface i ≠ .empty → 0 < (s.sdir.get i).refs → exec (.dropSurface unit i.val) s
      = .next (s.replied unit (.dropSurface i.val) .inUse (.references (s.sdir.get i).refs)))
    ∧ (s.surface i ≠ .empty → (s.sdir.get i).refs = 0 → exec (.dropSurface unit i.val) s
      = .next (State.replied { s with sdir := s.sdir.set i ⟨.empty, 0⟩ } unit (.dropSurface i.val) .ok .empty)))

/-- UPLOAD: the tests in order; an upload that passes hands the bytes that fit to the frame store controller and is executing. A
frame of more than 4,101 payload bytes is refused before (that it drops the waiting response and the POLL answer is read by
inference: entry 18). -/
def Obligations.UploadTaken : Prop :=
  (∀ (s : State) (unit id offset : Nat) (chunk : List Byte), s.Takes unit 10 → chunk.length ≤ 4096 →
    256 ≤ id ∨ chunk = [] →
    exec (.upload unit id offset chunk) s = .next (s.replied unit (.upload id offset chunk) .badValue .empty))
  ∧ (∀ (s : State) (unit id offset : Nat) (chunk : List Byte), s.Takes unit 10 → 4096 < chunk.length →
    exec (.upload unit id offset chunk) s = .next (s.replied unit (.upload id offset chunk) .badLength .empty))
  ∧ ∀ (s : State) (unit : Nat) (i : SurfaceId) (offset : Nat) (chunk : List Byte), s.Takes unit 10 →
    chunk ≠ [] → chunk.length ≤ 4096 →
    let cmd : HostCmd := .upload i.val offset chunk
    (s.surface i = .empty → exec (.upload unit i.val offset chunk) s
      = .next (s.replied unit cmd .notLoading (.loadState .empty)))
    ∧ (∀ d, s.surface i = .ready d → exec (.upload unit i.val offset chunk) s
      = .next (s.replied unit cmd .notLoading (.loadState .ready)))
    ∧ (∀ d loaded, s.surface i = .loading d loaded → offset ≠ loaded → exec (.upload unit i.val offset chunk) s
      = .next (s.replied unit cmd .outOfOrder (.loadedSoFar loaded)))
    ∧ ∀ d loaded, s.surface i = .loading d loaded → offset = loaded → exec (.upload unit i.val offset chunk) s
      = .next { s with
          clc := s.nowExecuting unit 10 (encodeFrame unit cmd) (.upload i (min chunk.length (d.totalBytes - loaded)))
          fsc := Fsc.granted s.now { s.fsc with
            upload := some ⟨d.basePage * 4096 + loaded, chunk.take (d.totalBytes - loaded), 0⟩ } }

/-- SURFACE_INFO, TILE_INFO and GROUP_INFO answer with the record named and change nothing but the link; a number out of range is
refused. (That warm_up_left is rounded down to milliseconds is read by inference: entry 31.) -/
def Obligations.RecordsReported : Prop :=
  (∀ (s : State) (unit id : Nat), s.Takes unit 22 → 256 ≤ id →
    exec (.surfaceInfo unit id) s = .next (s.replied unit (.surfaceInfo id) .badValue .empty))
  ∧ (∀ (s : State) (unit : Nat) (i : SurfaceId), s.Takes unit 22 →
      exec (.surfaceInfo unit i.val) s = .next (s.replied unit (.surfaceInfo i.val) .ok (.surface
        (match s.surface i with
          | .empty => ⟨.empty, none, none, none, none, none, (s.sdir.get i).refs⟩
          | .loading d loaded => ⟨.loading, some d, some (d.height / d.cells), some ((d.totalBytes + 4095) / 4096),
              some d.totalBytes, some loaded, (s.sdir.get i).refs⟩
          | .ready d => ⟨.ready, some d, some (d.height / d.cells), some ((d.totalBytes + 4095) / 4096),
              some d.totalBytes, some d.totalBytes, (s.sdir.get i).refs⟩))))
  ∧ (∀ (s : State) (unit tile : Nat), s.Takes unit 26 → 16 ≤ tile →
      exec (.tileInfo unit tile) s = .next (s.replied unit (.tileInfo tile) .badValue .empty))
  ∧ (∀ (s : State) (unit : Nat) (t : TileId), s.Takes unit 26 →
      exec (.tileInfo unit t.val) s = .next (s.replied unit (.tileInfo t.val) .ok (.tile {
        tile := s.tiles.get t
        setting := s.geo
        held := s.held.rects.get t
        portState := (s.ports.get t).state.name
        rail := decide ((s.ports.get t).state.name ≠ .off ∧ (s.ports.get t).state.name ≠ .fault)
        attempt := match (s.ports.get t).state with | .training a _ => some a | _ => none
        attemptFrames := match (s.ports.get t).state with | .training _ n => some n | _ => none
        warmUpLeft := match (s.ports.get t).state with
          | .powering endsAt => some ((endsAt - s.now) / Config.ticksPerMilli)
          | _ => none
        missed := (s.ports.get t).missed
        drainStage := match (s.ports.get t).state with | .draining stage _ => some stage | _ => none
        restartAfterDrain := match (s.ports.get t).state with | .draining _ restart => restart | _ => false
        temperature := (s.ports.get t).temperature
        kind := (s.frames.get t).kind
        level := (s.frames.get t).level
        temperatureInForce := (s.frames.get t).temperature
        underruns := (s.cmp.get t).underruns
        active := s.cvb.active.get t
        shadow := match s.cvb.prep with | .complete _ => s.cvb.shadow.get t | _ => none })))
  ∧ (∀ (s : State) (unit group : Nat), s.Takes unit 21 → 8 ≤ group →
      exec (.groupInfo unit group) s = .next (s.replied unit (.groupInfo group) .badValue .empty))
  ∧ ∀ (s : State) (unit : Nat) (g : GroupId), s.Takes unit 21 →
      ∃ report : GroupReport,
        exec (.groupInfo unit g.val) s = .next (s.replied unit (.groupInfo g.val) .ok (.group report))
        ∧ report.state = (s.groupState g).name ∧ report.trigger = (s.groups.get g).trigger
        ∧ report.commitTimeout = (s.groups.get g).commitTimeout
        ∧ report.nominateFrame = (match s.groupState g with | .nominated f => some f | .inDoubt f => some f | _ => none)
        ∧ report.lastCutFrame = (s.groups.get g).lastCutFrame
        ∧ report.cuts = (s.groups.get g).cuts ∧ report.abandons = (s.groups.get g).abandons
        ∧ report.cutSequence = s.csu.cutSequence
        ∧ (s.clc.straps.role = .master → report.dueQueue = some s.due
            ∧ report.position = (if g ∈ s.due then some (s.due.idxOf g + 1) else none)
            ∧ (∀ target, (s.groups.get g).trigger = .frame target →
                report.framesRemaining = if s.groupState g = .armed then some (target - s.csu.frame).toNat else none)
            ∧ ((∀ target, (s.groups.get g).trigger ≠ .frame target) → report.framesRemaining = none))
        ∧ (s.clc.straps.role = .slave →
            report.dueQueue = none ∧ report.position = none ∧ report.framesRemaining = none)
        ∧ report.staged = (s.ptab.rows.filter fun r => match r with | .staged h _ => h = g | _ => false).length
        ∧ report.live = (s.ptab.rows.filter fun r => match r with | .live h _ _ _ _ => h = g | _ => false).length
        ∧ report.fading = (s.ptab.rows.filter fun r => match r with | .fading h _ _ _ _ => h = g | _ => false).length
        ∧ report.pendingReplace = (s.ptab.rows.filter fun r =>
            match r with | .live h _ _ _ (some (.replace _ _)) => h = g | _ => false).length
        ∧ report.pendingRetire = (s.ptab.rows.filter fun r =>
            match r with | .live h _ _ _ (some .retire) => h = g | _ => false).length
        ∧ ∃ waiting : List SurfaceId, waiting.Nodup ∧ report.surfacesNotReady = waiting.length
            ∧ ∀ i, i ∈ waiting ↔ (¬ ∃ d, s.surface i = .ready d) ∧ ∃ r ∈ s.ptab.rows,
                (∃ v, r = .staged g v ∧ v.surface = i)
                  ∨ ∃ v a b new restart, r = .live g v a b (some (.replace new restart)) ∧ new.surface = i

/-- The five tests of a set of values, in order, and the values as taken with their steps and end age. -/
def Obligations.ValuesTested : Prop :=
  ∀ (s : State) (v : RawValues),
    (¬ valuesFit v → s.checkValues v = .error .badValue)
    ∧ ∀ i : SurfaceId, valuesFit v → v.surface = i.val →
      (s.surface i = .empty → s.checkValues v = .error .noSuch)
      ∧ ∀ d, (s.surface i).desc = some d →
        let stepX := v.sw * 65536 / v.dw
        let stepY := v.sh * 65536 / v.dh
        let misfit := d.width < v.sx + v.sw ∨ d.height / d.cells < v.sy + v.sh ∨ d.cells ≤ v.firstCell
        let scaled := 4096 ≤ stepX ∧ stepX ≤ 1048576 ∧ 4096 ≤ stepY ∧ stepY ≤ 1048576
        (misfit → s.checkValues v = .error .badValue)
        ∧ (¬ misfit → ¬ scaled → s.checkValues v = .error .scaleRange)
        ∧ (¬ misfit → scaled → ∃ w, s.checkValues v = .ok w
            ∧ w = { layer := v.layer, dx := v.dx, dy := v.dy, dw := v.dw, dh := v.dh, surface := i
                    sx := v.sx, sy := v.sy, sw := v.sw, sh := v.sh, stepX := stepX, stepY := stepY
                    alpha := min v.alpha 256, fadeIn := v.fadeIn, fadeOut := v.fadeOut, runLength := v.runLength
                    cellRate := max v.cellRate 1, firstCell := v.firstCell, cellMode := w.cellMode, endAge := w.endAge }
            ∧ (v.cellMode, w.cellMode) ∈ [(0, CellMode.loop), (1, .onceHold), (2, .onceRetire)]
            ∧ (w.cellMode ≠ .onceRetire → w.endAge = if v.runLength = 0 then none else some v.runLength)
            ∧ (w.cellMode = .onceRetire → w.endAge =
                let flipbook := (d.cells - v.firstCell) * max v.cellRate 1
                if v.runLength = 0 then some flipbook else some (min v.runLength flipbook)))

/-- PLACE: the tests in order; a FREE record becomes STAGED in the group carried, and its surface is named once more. -/
def Obligations.PlacementStaged : Prop :=
  (∀ (s : State) (unit id group : Nat) (v : RawValues), s.Takes unit 12 → 128 ≤ id ∨ 8 ≤ group →
    exec (.place unit id group v) s = .next (s.replied unit (.place id group v) .badValue .empty))
  ∧ ∀ (s : State) (unit : Nat) (i : PlacementId) (g : GroupId) (v : RawValues), s.Takes unit 12 →
    let cmd : HostCmd := .place i.val g.val v
    (∀ h, (s.ptab.get i).group = some h → exec (.place unit i.val g.val v) s
      = .next (s.replied unit cmd .idInUse (.recordInUse (s.ptab.get i).name h)))
    ∧ (s.ptab.get i = .free → (s.groupState g).Locks → exec (.place unit i.val g.val v) s
      = .next (s.replied unit cmd .groupLocked .empty))
    ∧ (∀ status, s.ptab.get i = .free → ¬ (s.groupState g).Locks → s.checkValues v = .error status →
        exec (.place unit i.val g.val v) s = .next (s.replied unit cmd status .empty))
    ∧ ∀ w, s.ptab.get i = .free → ¬ (s.groupState g).Locks → s.checkValues v = .ok w →
        exec (.place unit i.val g.val v) s = .next (State.replied
          { s with
            ptab := s.ptab.set i (.staged g w)
            sdir := s.sdir.modify w.surface fun r => { r with refs := r.refs + 1 } }
          unit cmd .ok (.placed w.stepX w.stepY w.endAge))

/-- AMEND: the tests in order; a STAGED record takes the new values, a LIVE record a pending REPLACE in place of what was pending,
with the notices of R51. -/
def Obligations.PlacementAmended : Prop :=
  (∀ (s : State) (unit id restart : Nat) (v : RawValues), s.Takes unit 13 → 128 ≤ id ∨ 1 < restart →
    exec (.amend unit id v restart) s = .next (s.replied unit (.amend id v restart) .badValue .empty))
  ∧ ∀ (s : State) (unit : Nat) (i : PlacementId) (v : RawValues) (restart : Nat), s.Takes unit 13 → restart ≤ 1 →
    let cmd : HostCmd := .amend i.val v restart
    (s.ptab.get i = .free → exec (.amend unit i.val v restart) s = .next (s.replied unit cmd .noSuch .empty))
    ∧ (∀ g, (s.ptab.get i).group = some g → (s.groupState g).Locks →
        exec (.amend unit i.val v restart) s = .next (s.replied unit cmd .groupLocked .empty))
    ∧ (∀ g old a b start, s.ptab.get i = .fading g old a b start → ¬ (s.groupState g).Locks →
        exec (.amend unit i.val v restart) s = .next (s.replied unit cmd .retiring (.fadeStart start)))
    ∧ (∀ g old a b p status, s.ptab.get i = .staged g old ∨ s.ptab.get i = .live g old a b p →
        ¬ (s.groupState g).Locks → s.checkValues v = .error status →
        exec (.amend unit i.val v restart) s = .next (s.replied unit cmd status .empty))
    ∧ (∀ g old w, s.ptab.get i = .staged g old → ¬ (s.groupState g).Locks → s.checkValues v = .ok w →
        exec (.amend unit i.val v restart) s = .next (State.replied
          { s with
            ptab := s.ptab.set i (.staged g w)
            sdir := (s.sdir.modify old.surface fun r => { r with refs := r.refs - 1 }).modify w.surface
              fun r => { r with refs := r.refs + 1 } }
          unit cmd .ok (.placed w.stepX w.stepY w.endAge)))
    ∧ ∀ g old a b p w, s.ptab.get i = .live g old a b p → ¬ (s.groupState g).Locks → s.checkValues v = .ok w →
        exec (.amend unit i.val v restart) s = .next (State.replied
          { s with
            ptab := s.ptab.set i (.live g old a b (some (.replace w (decide (restart = 1)))))
            sdir := (match p with
              | some (.replace dropped _) => s.sdir.modify dropped.surface fun r => { r with refs := r.refs - 1 }
              | _ => s.sdir).modify w.surface fun r => { r with refs := r.refs + 1 } }
          unit cmd .ok (.amended w.stepX w.stepY w.endAge
            (match p with | some (.replace _ _) => some .replace | some .retire => some .retire | none => none)))

/-- RETIRE: the tests in order; past them a STAGED record becomes FREE, a LIVE one holds a pending RETIRE and no other amendment,
a FADING one is answered RETIRING. -/
def Obligations.PlacementRetired : Prop :=
  (∀ (s : State) (unit id : Nat), s.Takes unit 14 → 128 ≤ id →
    exec (.retire unit id) s = .next (s.replied unit (.retire id) .badValue .empty))
  ∧ (∀ (s : State) (unit : Nat) (i : PlacementId), s.Takes unit 14 → s.ptab.get i = .free →
      exec (.retire unit i.val) s = .next (s.replied unit (.retire i.val) .noSuch .empty))
  ∧ (∀ (s : State) (unit : Nat) (i : PlacementId) (g : GroupId), s.Takes unit 14 →
      (s.ptab.get i).group = some g → (s.groupState g).Locks →
      exec (.retire unit i.val) s = .next (s.replied unit (.retire i.val) .groupLocked .empty))
  ∧ ∀ (s : State) (unit : Nat) (i : PlacementId) (g : GroupId) (v : Values), s.Takes unit 14 → ¬ (s.groupState g).Locks →
    (s.ptab.get i = .staged g v → exec (.retire unit i.val) s = .next (State.replied
      { s with ptab := s.ptab.set i .free, sdir := s.sdir.modify v.surface fun r => { r with refs := r.refs - 1 } }
      unit (.retire i.val) .ok .empty))
    ∧ (∀ a b, s.ptab.get i = .live g v a b none ∨ s.ptab.get i = .live g v a b (some .retire) →
        exec (.retire unit i.val) s = .next (State.replied
          { s with ptab := s.ptab.set i (.live g v a b (some .retire)) } unit (.retire i.val) .ok .empty))
    ∧ (∀ a b new restart, s.ptab.get i = .live g v a b (some (.replace new restart)) →
        exec (.retire unit i.val) s = .next (State.replied
          { s with
            ptab := s.ptab.set i (.live g v a b (some .retire))
            sdir := s.sdir.modify new.surface fun r => { r with refs := r.refs - 1 } }
          unit (.retire i.val) .ok .empty))
    ∧ ∀ a b start, s.ptab.get i = .fading g v a b start →
        exec (.retire unit i.val) s = .next (s.replied unit (.retire i.val) .retiring (.fadeStart start))

/-- WITHDRAW: the tests of RETIRE in order; past them a STAGED record becomes FREE, with the effect RETIRE has on it, and a LIVE
one loses its pending amendment and goes on being shown with its live values and its run; where nothing is pending nothing
changes. -/
def Obligations.PlacementWithdrawn : Prop :=
  (∀ (s : State) (unit id : Nat), s.Takes unit 15 → 128 ≤ id →
    exec (.withdraw unit id) s = .next (s.replied unit (.withdraw id) .badValue .empty))
  ∧ (∀ (s : State) (unit : Nat) (i : PlacementId), s.Takes unit 15 → s.ptab.get i = .free →
      exec (.withdraw unit i.val) s = .next (s.replied unit (.withdraw i.val) .noSuch .empty))
  ∧ (∀ (s : State) (unit : Nat) (i : PlacementId) (g : GroupId), s.Takes unit 15 →
      (s.ptab.get i).group = some g → (s.groupState g).Locks →
      exec (.withdraw unit i.val) s = .next (s.replied unit (.withdraw i.val) .groupLocked .empty))
  ∧ (∀ (s : State) (unit : Nat) (i : PlacementId) (g : GroupId) (v : Values), s.Takes unit 15 → ¬ (s.groupState g).Locks →
    (s.ptab.get i = .staged g v → exec (.withdraw unit i.val) s = .next (State.replied
      { s with ptab := s.ptab.set i .free, sdir := s.sdir.modify v.surface fun r => { r with refs := r.refs - 1 } }
      unit (.withdraw i.val) .ok .empty))
    ∧ (∀ a b new restart, s.ptab.get i = .live g v a b (some (.replace new restart)) →
        exec (.withdraw unit i.val) s = .next (State.replied
          { s with
            ptab := s.ptab.set i (.live g v a b none)
            sdir := s.sdir.modify new.surface fun r => { r with refs := r.refs - 1 } }
          unit (.withdraw i.val) .ok (.withdrawn .replace)))
    ∧ (∀ a b, s.ptab.get i = .live g v a b (some .retire) → exec (.withdraw unit i.val) s = .next (State.replied
          { s with ptab := s.ptab.set i (.live g v a b none) } unit (.withdraw i.val) .ok (.withdrawn .retire)))
    ∧ ∀ a b start, s.ptab.get i = .live g v a b none ∨ s.ptab.get i = .fading g v a b start →
        exec (.withdraw unit i.val) s = .next (s.replied unit (.withdraw i.val) .nothingPending .empty))
  ∧ ∀ (s : State) (unit : Nat) (i : PlacementId) (g : GroupId) (v : Values), s.Takes unit 15 → s.ptab.get i = .staged g v →
      ∃ t u, exec (.withdraw unit i.val) s = .next t ∧ exec (.retire unit i.val) s = .next u ∧ t = { u with clc := t.clc }
        ∧ t.clc.response.map Response.status = u.clc.response.map Response.status

/-- LOOKUP returns the record named and FIND the records at a point, topmost first and at most 16; they change nothing but the
link. -/
def Obligations.PlacementsReported : Prop :=
  (∀ (s : State) (unit id : Nat), s.Takes unit 16 → 128 ≤ id →
    exec (.lookup unit id) s = .next (s.replied unit (.lookup id) .badValue .empty))
  ∧ (∀ (s : State) (unit : Nat) (i : PlacementId), s.Takes unit 16 →
      ∃ payload, exec (.lookup unit i.val) s = .next (s.replied unit (.lookup i.val) .ok payload)
        ∧ (s.ptab.get i = .free → payload = .lookupFree) ∧ (s.ptab.get i ≠ .free → ∃ r, payload = .lookup r)
        ∧ ∀ r : LookupReport, payload = .lookup r →
          (∀ t, r.covered.get t = decide (i ∈ (s.cvb.active.get t).ids))
          ∧ (∀ g v, s.ptab.get i = .staged g v → r.state = .staged ∧ r.group = g ∧ r.values = v ∧ r.liveSince = none
              ∧ r.valuesSince = none ∧ r.fadeStart = none ∧ r.pending = none ∧ r.schedule = none)
          ∧ (∀ g v a b p, s.ptab.get i = .live g v a b p → r.state = .live ∧ r.group = g ∧ r.values = v
              ∧ r.liveSince = some a ∧ r.valuesSince = some b ∧ r.fadeStart = none
              ∧ (p = none → r.pending = none) ∧ (p = some .retire → r.pending = some .retire)
              ∧ (∀ new restart, p = some (.replace new restart) → r.pending = some .replace
                  ∧ r.pendingReplace = some (new.surface, ⟨new.dx, new.dy, new.dw, new.dh⟩, restart))
              ∧ ∃ x, r.schedule = some x ∧ x.age = (s.csu.frame - a).toNat ∧ x.fadeWeight = fadeInWeight v x.age
                ∧ (∀ d, (s.surface v.surface).desc = some d → x.cell = cellAt v d.cells x.age)
                ∧ x.effectiveWeight = v.alpha * x.fadeWeight / 256)
          ∧ ∀ g v a b f, s.ptab.get i = .fading g v a b f → r.state = .fading ∧ r.group = g ∧ r.values = v
              ∧ r.liveSince = some a ∧ r.valuesSince = some b ∧ r.fadeStart = some f ∧ r.pending = none
              ∧ ∃ x, r.schedule = some x ∧ x.age = (s.csu.frame - a).toNat
                ∧ (∀ d, (s.surface v.surface).desc = some d → x.cell = cellAt v d.cells x.age)
                ∧ x.fadeWeight = min (fadeInWeight v x.age) (fadeOutWeight v (s.csu.frame - f).toNat)
                ∧ x.effectiveWeight = v.alpha * x.fadeWeight / 256)
  ∧ (∀ (s : State) (unit x y : Nat), s.Takes unit 17 → 16383 < x ∨ 16383 < y →
      exec (.find unit x y) s = .next (s.replied unit (.find x y) .badValue .empty))
  ∧ ∀ (s : State) (unit x y : Nat), s.Takes unit 17 → x ≤ 16383 → y ≤ 16383 →
      ∃ (found : List Member) (entries : List FindEntry),
        exec (.find unit x y) s
          = .next (s.replied unit (.find x y) .ok (.found entries (decide (16 < found.length))))
        ∧ (∀ i v, (i, v) ∈ found ↔ (s.ptab.get i).shown = some v
            ∧ v.dx ≤ x ∧ x < v.dx + v.dw ∧ v.dy ≤ y ∧ y < v.dy + v.dh)
        ∧ found.Nodup ∧ found.Pairwise (fun m n => composedBefore n m)
        ∧ entries = (found.take 16).map fun m => ⟨m.1, m.2.layer, (s.ptab.get m.1).name,
            (List.finRange 16).any fun t => (s.held.rects.get t).any (fun r =>
                decide (r.x ≤ x ∧ x < r.x + r.w ∧ r.y ≤ y ∧ y < r.y + r.h))
              && decide (m.1 ∈ (s.cvb.active.get t).ids)⟩

/-- What an evaluation at boundary F makes of each record while the part is LOCKED: a LIVE record at its end becomes FADING from
its end frame and loses its pending amendment, a FADING record whose fade has run out becomes FREE, both at once where both hold;
any other record stays. Out of lock nothing is evaluated. The records freed leave every coverage list and no count changes; a
preparation in flight that loses one, and any preparation of the NOMINATED group that loses a pending REPLACE, begins again; each
pending REPLACE lost is reported. RUN_EXPIRY and FADE_COMPLETE do to their one record, and to the counts, lists and reports, what a
boundary at the frame in progress would, RDY is re-tested, and where the end is not due they do nothing (the model's choices, entries 13
and 6; the order of reports that fall together is a free value, entry 14). -/
def Obligations.RecordsEnd : Prop :=
  ((∀ (s : State) (i : PlacementId), s.csu.sync = .locked →
    (s.ptab.get i = .free → s.evaluate.ptab.get i = .free)
    ∧ (∀ g v, s.ptab.get i = .staged g v → s.evaluate.ptab.get i = .staged g v)
    ∧ (∀ g v a b f, s.ptab.get i = .fading g v a b f → s.evaluate.ptab.get i =
        if v.fadeOut ≤ (s.csu.frame - f).toNat then .free else .fading g v a b f)
    ∧ (∀ g v a b p, s.ptab.get i = .live g v a b p →
        (∀ e, v.endAge = some e → e ≤ (s.csu.frame - a).toNat →
          let x := a + BitVec.ofNat 32 e
          let f := if 1 ≤ (x - b).toNat ∧ (x - b).toNat ≤ 2147483647 then x else b
          s.evaluate.ptab.get i = if v.fadeOut ≤ (s.csu.frame - f).toNat then .free else .fading g v a b f)
        ∧ ((∀ e, v.endAge = some e → (s.csu.frame - a).toNat < e) → s.evaluate.ptab.get i = .live g v a b p)))
  ∧ (∀ s : State, s.csu.sync ≠ .locked → s.evaluate = s)
  ∧ (∀ s : State, s.csu.sync = .locked → s.evaluate =
      { s with ptab := s.evaluate.ptab, sdir := s.evaluate.sdir, cvb := s.evaluate.cvb, evb := s.evaluate.evb })
  ∧ (∀ (s : State) (i : SurfaceId), s.RefsInv →
      (s.evaluate.sdir.get i).state = (s.sdir.get i).state ∧ (s.evaluate.sdir.get i).refs = s.evaluate.slotCount i)
  ∧ ∀ s : State, s.csu.sync = .locked →
      let freed := fun i => s.ptab.get i ≠ .free ∧ s.evaluate.ptab.get i = .free
      let loses := fun (i : PlacementId) (g : GroupId) (k : SurfaceId) => ∃ v a b new restart e,
        s.ptab.get i = .live g v a b (some (.replace new restart)) ∧ new.surface = k
          ∧ v.endAge = some e ∧ e ≤ (s.csu.frame - a).toNat
      let begunAgain := ((∃ i, freed i) ∧ ∃ g, s.cvb.prep = .inFlight g) ∨ ∃ i g k, loses i g k ∧ s.nominatedGroup = some g
      (∀ t, s.evaluate.cvb.active.get t
        = ⟨(s.cvb.active.get t).ids.filter fun i => ¬ freed i, (s.cvb.active.get t).excluded⟩)
      ∧ (∀ g, begunAgain → s.cvb.prep = .inFlight g ∨ s.cvb.prep = .complete g →
          s.evaluate.cvb.shadow = Table.replicate 16 none
          ∧ s.evaluate.cvb.prep = if ∃ t, s.held.rects.get t ≠ none then .inFlight g else .complete g)
      ∧ (¬ begunAgain ∨ s.cvb.prep = .none → s.evaluate.cvb.prep = s.cvb.prep ∧ ∀ t, s.evaluate.cvb.shadow.get t
          = (s.cvb.shadow.get t).map fun c => ⟨c.ids.filter fun i => ¬ freed i, c.excluded⟩)
      ∧ ((∀ i g k, ¬ loses i g k) → s.evaluate.evb = s.evb)
      ∧ (∀ n, n ≠ 14 → s.evaluate.evb.flags.get n = s.evb.flags.get n) ∧ s.evaluate.evb.enables = s.evb.enables
      ∧ (∀ i g k, loses i g k → s.phase ≠ .starting → ∃ r j h x, s.evaluate.evb.flags.get 14 = some r
          ∧ loses j h x ∧ r.detail = .pendingDiscarded j x
          ∧ ∃ losers : List PlacementId, losers.Nodup ∧ (∀ j, j ∈ losers ↔ ∃ h x, loses j h x)
            ∧ r.repeats = min 255 (((s.evb.flags.get 14).map FlagRec.repeats).getD 0 + losers.length)))
  ∧ ((∀ (s : State) (i : PlacementId) (g : GroupId) (v : Values) (a b : Frame) (p : Option Pending) (e : Nat),
    s.csu.sync = .locked → s.ptab.get i = .live g v a b p → v.endAge = some e → e ≤ (s.csu.frame - a).toNat →
    ∃ t, exec (.runExpiry i) s = .next t
      ∧ t = { s with ptab := t.ptab, sdir := t.sdir, cvb := t.cvb, csu := t.csu, evb := t.evb }
      ∧ s.RetestedAs t
      ∧ t.ptab.get i = s.evaluate.ptab.get i ∧ (∀ j, j ≠ i → t.ptab.get j = s.ptab.get j)
      ∧ (let freed := t.ptab.get i = .free
        let lost := fun (k : SurfaceId) => ∃ new restart, p = some (.replace new restart) ∧ new.surface = k
        let begunAgain := (freed ∧ ∃ h, s.cvb.prep = .inFlight h) ∨ ((∃ k, lost k) ∧ s.nominatedGroup = some g)
        (∀ k, (t.sdir.get k).state = (s.sdir.get k).state ∧ (t.sdir.get k).refs = (s.sdir.get k).refs
            - ((match p with | some (.replace new _) => if new.surface = k then 1 else 0 | _ => 0)
              + if freed ∧ v.surface = k then 1 else 0))
        ∧ (∀ k, t.cvb.active.get k = ⟨(s.cvb.active.get k).ids.filter fun j => ¬ (j = i ∧ freed), (s.cvb.active.get k).excluded⟩)
        ∧ (∀ h, begunAgain → s.cvb.prep = .inFlight h ∨ s.cvb.prep = .complete h →
            t.cvb.shadow = Table.replicate 16 none
            ∧ t.cvb.prep = if ∃ k, s.held.rects.get k ≠ none then .inFlight h else .complete h)
        ∧ (¬ begunAgain ∨ s.cvb.prep = .none → t.cvb.prep = s.cvb.prep ∧ ∀ k, t.cvb.shadow.get k
            = (s.cvb.shadow.get k).map fun c => ⟨c.ids.filter fun j => ¬ (j = i ∧ freed), c.excluded⟩)
        ∧ (∀ k, lost k → t.evb = s.told (.pendingDiscarded i k))
        ∧ ((∀ k, ¬ lost k) → t.evb = s.evb)))
  ∧ (∀ (s : State) (i : PlacementId) (g : GroupId) (v : Values) (a b f : Frame),
    s.csu.sync = .locked → s.ptab.get i = .fading g v a b f → v.fadeOut ≤ (s.csu.frame - f).toNat →
    ∃ t, exec (.fadeComplete i) s = .next t
      ∧ t = { s with ptab := t.ptab, sdir := t.sdir, cvb := t.cvb, csu := t.csu, evb := s.evb }
      ∧ s.RetestedAs t
      ∧ t.ptab = s.ptab.set i .free
      ∧ t.sdir = s.sdir.modify v.surface (fun r => { r with refs := r.refs - 1 })
      ∧ (∀ k, t.cvb.active.get k
          = ⟨(s.cvb.active.get k).ids.filter fun j => j ≠ i, (s.cvb.active.get k).excluded⟩)
      ∧ (∀ h, s.cvb.prep = .inFlight h → t.cvb.shadow = Table.replicate 16 none
          ∧ t.cvb.prep = if ∃ k, s.held.rects.get k ≠ none then .inFlight h else .complete h)
      ∧ ((∀ h, s.cvb.prep ≠ .inFlight h) → t.cvb.prep = s.cvb.prep ∧ ∀ k, t.cvb.shadow.get k
          = (s.cvb.shadow.get k).map fun c => ⟨c.ids.filter fun j => j ≠ i, c.excluded⟩))
  ∧ ∀ (s : State) (i : PlacementId),
    (s.csu.sync ≠ .locked ∨ (∀ g v a b p e, s.ptab.get i = .live g v a b p → v.endAge = some e → (s.csu.frame - a).toNat < e) →
      exec (.runExpiry i) s = .next s)
    ∧ (s.csu.sync ≠ .locked ∨ (∀ g v a b f, s.ptab.get i = .fading g v a b f → (s.csu.frame - f).toNat < v.fadeOut) →
      exec (.fadeComplete i) s = .next s))

/-! ### Groups, cuts and the chain -/

/-- SET_GROUP: the tests in order; an IDLE group takes the trigger with the fields of its kind and the commit timeout, 0 as 1, and
nothing else changes; in STARTING the frame is dropped. -/
def Obligations.GroupSet : Prop :=
  (∀ (s : State) (unit group kind cue edge target timeout : Nat), s.Takes unit 18 → 8 ≤ group →
    exec (.setGroup unit group kind cue edge target timeout) s
      = .next (s.replied unit (.setGroup group kind cue edge target timeout) .badValue .empty))
  ∧ (∀ (s : State) (unit : Nat) (g : GroupId) (kind cue edge target timeout : Nat), s.Takes unit 18 →
    let cmd : HostCmd := .setGroup g.val kind cue edge target timeout
    let misfit := 2 < kind ∨ (kind = 1 ∧ (3 < cue ∨ 3 < edge)) ∨ 255 < timeout
    (s.groupState g ≠ .idle → exec (.setGroup unit g.val kind cue edge target timeout) s
      = .next (s.replied unit cmd .groupBusy (.groupState (s.groupState g).name)))
    ∧ (s.groupState g = .idle → misfit → exec (.setGroup unit g.val kind cue edge target timeout) s
      = .next (s.replied unit cmd .badValue .empty))
    ∧ (s.groupState g = .idle → ¬ misfit → ∃ trigger,
        exec (.setGroup unit g.val kind cue edge target timeout) s = .next (State.replied
          { s with groups := s.groups.set g { s.groups.get g with
            trigger := trigger, commitTimeout := max timeout 1 } } unit cmd .ok (.commitTimeout (max timeout 1)))
        ∧ (kind = 0 → trigger = .immediate)
        ∧ (kind = 1 → ∃ (c : CueId) (e : Edge), trigger = .cue c e ∧ c.val = cue
            ∧ (edge, e) ∈ [(0, Edge.rising), (1, .falling), (2, .any), (3, .level)])
        ∧ (kind = 2 → trigger = .frame (BitVec.ofNat 32 target))))
  ∧ ∀ (s : State) (unit group kind cue edge target timeout : Nat), s.phase = .starting →
    exec (.setGroup unit group kind cue edge target timeout) s = .next s

/-- COMMIT: the tests in order; on the master an IDLE group becomes DUE at the tail of the queue or ARMED, by its trigger.
(IN_DOUBT, which the master does not enter, is refused like NOMINATED: the model's choice, entry 27.) -/
def Obligations.GroupCommitted : Prop :=
  (∀ (s : State) (unit group : Nat), s.Takes unit 19 → 8 ≤ group →
    exec (.commit unit group) s = .next (s.replied unit (.commit group) .badValue .empty))
  ∧ ∀ (s : State) (unit : Nat) (g : GroupId), s.Takes unit 19 →
    let cmd : HostCmd := .commit g.val
    let master := s.clc.straps.role = .master
    let idle := s.groupState g = .idle
    let due := State.replied
      { s with groups := s.groups.set g { s.groups.get g with state := .due }, due := s.due ++ [g] }
      unit cmd .ok (.committedDue (s.due.length + 1))
    let armed := fun left => State.replied
      { s with groups := s.groups.set g { s.groups.get g with state := .armed } } unit cmd .ok (.committedArmed left)
    (¬ master → exec (.commit unit g.val) s = .next (s.replied unit cmd .notMaster .empty))
    ∧ (master → ¬ idle → exec (.commit unit g.val) s
      = .next (s.replied unit cmd .groupBusy (.groupState (s.groupState g).name)))
    ∧ (master → idle → (s.groups.get g).trigger = .immediate → exec (.commit unit g.val) s = .next due)
    ∧ (∀ c e, master → idle → (s.groups.get g).trigger = .cue c e → exec (.commit unit g.val) s = .next
        (if e = .level ∧ s.cbi.cue.get c = some true then due else armed none))
    ∧ ∀ target, master → idle → (s.groups.get g).trigger = .frame target → exec (.commit unit g.val) s = .next
        (if 1 ≤ (target - s.csu.frame).toNat ∧ (target - s.csu.frame).toNat ≤ 2147483647 then
          armed (some (target - s.csu.frame).toNat)
        else s.replied unit cmd .tooLate (.frameNow s.csu.frame))

/-- CANCEL: the tests in order; an ARMED or DUE group of the master becomes IDLE and leaves the queue from its position. -/
def Obligations.GroupCancelled : Prop :=
  (∀ (s : State) (unit group : Nat), s.Takes unit 20 → 8 ≤ group →
    exec (.cancel unit group) s = .next (s.replied unit (.cancel group) .badValue .empty))
  ∧ ∀ (s : State) (unit : Nat) (g : GroupId), s.Takes unit 20 →
    let cmd : HostCmd := .cancel g.val
    let withdrawn := { s with
      groups := s.groups.set g { s.groups.get g with state := .idle }, due := s.due.filter fun h => h ≠ g }
    (s.clc.straps.role = .slave → exec (.cancel unit g.val) s = .next (s.replied unit cmd .notMaster .empty))
    ∧ (s.clc.straps.role = .master → s.groupState g = .idle →
        exec (.cancel unit g.val) s = .next (s.replied unit cmd .nothingPending .empty))
    ∧ (∀ f, s.clc.straps.role = .master → s.groupState g = .nominated f →
        exec (.cancel unit g.val) s = .next (s.replied unit cmd .tooLate (.nominatedAt f)))
    ∧ (s.clc.straps.role = .master → s.groupState g = .armed →
        exec (.cancel unit g.val) s = .next (withdrawn.replied unit cmd .ok (.cancelled .armed)))
    ∧ (s.clc.straps.role = .master → s.groupState g = .due →
        exec (.cancel unit g.val) s = .next (withdrawn.replied unit cmd .ok (.cancelled .due)))

/-- A settled cue edge is reported, no earlier than 2 ms after the cue was sampled, and on the master makes every ARMED group DUE that
watches the cue and this edge, in ascending order; a change that does not hold or is none, or comes before the cue is sampled, moves
only the pin. FRAME_TRIGGER on a master
whose timing runs makes every ARMED group DUE whose target is the coming boundary (the row is the trigger taken before the
decision: entry 13; the time an input has held is an operand: entry 29). -/
def Obligations.TriggersFire : Prop :=
  ((∀ (s : State) (c : CueId) (level : Bool) (held : Nat),
    s.cbi.cue.get c = none ∨ held < 2000 ∨ s.cbi.cue.get c = some (level != s.cbi.inversion.get c) →
    exec (.cueEdge c level held) s = .next { s with pins := { s.pins with cue := s.pins.cue.set c level } })
  ∧ ∀ (s : State) (c : CueId) (level high : Bool) (held : Nat), 2000 ≤ held → high = (level != s.cbi.inversion.get c) →
    s.cbi.cue.get c = some (!high) →
    let fires := fun g => s.clc.straps.role = .master ∧ (s.groups.get g).state = .armed
      ∧ ∃ e, (s.groups.get g).trigger = .cue c e ∧ (if high then e ≠ .falling else e = .falling ∨ e = .any)
    ∃ (t : State) (fired : List GroupId), exec (.cueEdge c level held) s = .next t
      ∧ t = { s with
          now := max s.now (s.cbi.cueSampledAt + 2000 * Config.ticksPerMicro)
          pins := { s.pins with cue := s.pins.cue.set c level }
          cbi := { s.cbi with cue := s.cbi.cue.set c (some high) }
          groups := t.groups
          due := s.due ++ fired
          evb := s.told (.cue c (if high then .rising else .falling)) }
      ∧ fired.Pairwise (fun g h => g.val < h.val) ∧ (∀ g, g ∈ fired ↔ fires g)
      ∧ (∀ g, g ∈ fired → t.groups.get g = { s.groups.get g with state := .due })
      ∧ ∀ g, g ∉ fired → t.groups.get g = s.groups.get g)
  ∧ (∀ s : State, s.clc.straps.role = .master → s.csu.timing = true →
    let fires := fun g => (s.groups.get g).state = .armed ∧ (s.groups.get g).trigger = .frame (s.csu.frame + 1)
    ∃ (t : State) (fired : List GroupId), exec .frameTrigger s = .next t
      ∧ t = { s with
          now := max s.now (s.csu.boundaryAt + Config.ticksPerSecond / s.rateNow.hertz)
          groups := t.groups
          due := s.due ++ fired }
      ∧ fired.Pairwise (fun g h => g.val < h.val) ∧ (∀ g, g ∈ fired ↔ fires g)
      ∧ (∀ g, g ∈ fired → t.groups.get g = { s.groups.get g with state := .due })
      ∧ ∀ g, g ∉ fired → t.groups.get g = s.groups.get g)

/-- A cut of g at F: every record of the group moves by the table of R80 to R82 and no other record; the group record and the
chain state by R83; the coverage lists by R84, in each of its three cases; CUT_DONE and, where a list leaves records out, OVERCOVER are
reported. An abandon of g: the group
becomes IDLE and its count advances; the preparation held for it goes; the records, the counts of the surfaces, the cut sequence
and the last cut stay. -/
def Obligations.CutsAndAbandons : Prop :=
  (∀ (s : State) (g : GroupId) (f : Frame), let t := s.executeCut g f
    (∀ i, (s.ptab.get i).group ≠ some g → t.ptab.get i = s.ptab.get i)
    ∧ (∀ i v, s.ptab.get i = .staged g v → t.ptab.get i = .live g v f f none)
    ∧ (∀ i v a b, s.ptab.get i = .live g v a b none → t.ptab.get i = .live g v a b none)
    ∧ (∀ i v a b new, s.ptab.get i = .live g v a b (some (.replace new true)) → t.ptab.get i = .live g new f f none)
    ∧ (∀ i v a b new, s.ptab.get i = .live g v a b (some (.replace new false)) →
        ((∀ e, new.endAge = some e → (f - a).toNat < e) → t.ptab.get i = .live g new a f none)
        ∧ ∀ e, new.endAge = some e → e ≤ (f - a).toNat →
          t.ptab.get i = if new.fadeOut = 0 then .free else .fading g new a f f)
    ∧ (∀ i v a b, s.ptab.get i = .live g v a b (some .retire) →
        t.ptab.get i = if v.fadeOut = 0 then .free else .fading g v a b f)
    ∧ (∀ i v a b c, s.ptab.get i = .fading g v a b c → t.ptab.get i = .fading g v a b c)
    ∧ (s.RefsInv → ∀ i, (t.sdir.get i).state = (s.sdir.get i).state ∧ (t.sdir.get i).refs = t.slotCount i)
    ∧ t.groups = s.groups.set g { s.groups.get g with
        state := .idle, lastCutFrame := some f, cuts := (s.groups.get g).cuts + 1 }
    ∧ t = { s with ptab := t.ptab, sdir := t.sdir, groups := t.groups, csu := t.csu, cvb := t.cvb, evb := t.evb }
    ∧ t.csu = { s.csu with
        cutSequence := s.csu.cutSequence + 1, lastCut := some (g, f)
        readinessGiven := t.csu.readinessGiven, desyncHold := t.csu.desyncHold }
    ∧ ((∀ h, h ≠ g → ¬ (s.groupState h).Locks) → t.csu.readinessGiven = false ∧ t.csu.desyncHold = none)
    ∧ (s.phase ≠ .starting → ∃ r, t.evb.flags.get 1 = some r ∧ r.detail = .cutDone g (s.csu.cutSequence + 1) f)
    ∧ (s.cvb.prep = .complete g → t.cvb.prep = .none ∧ t.cvb.shadow = Table.replicate 16 none ∧ ∀ u,
        t.cvb.active.get u = match s.cvb.shadow.get u with
          | none => ⟨[], 0⟩
          | some c => ⟨c.ids.filter fun i => s.ptab.get i = .free ∨ t.ptab.get i ≠ .free, c.excluded⟩)
    ∧ (s.cvb.prep = .none ∨ s.cvb.prep = .inFlight g → t.cvb.prep = .none)
    ∧ (s.cvb.prep = .inFlight g → t.cvb.shadow = Table.replicate 16 none)
    ∧ (∀ h, h ≠ g → s.cvb.prep = .inFlight h ∨ s.cvb.prep = .complete h →
        t.cvb.shadow = Table.replicate 16 none
        ∧ t.cvb.prep = if ∃ u, s.held.rects.get u ≠ none then .inFlight h else .complete h)
    ∧ (s.cvb.prep ≠ .complete g → ∀ u,
        t.cvb.active.get u = buildCoverage (s.held.rects.get u) (liveSet t.ptab))
    ∧ (let done := s.told (.cutDone g (s.csu.cutSequence + 1) f);
        t.evb = match (List.finRange 16).filter (fun u => decide (0 < (t.cvb.active.get u).excluded)) with
          | [] => done
          | u :: more => State.told { s with evb := done }
              (.overcover (more.length + 1) u (t.cvb.active.get u).excluded)))
  ∧ (∀ (s : State) (g : GroupId), s.executeAbandon g = { s with
    groups := s.groups.set g { s.groups.get g with state := .idle, abandons := (s.groups.get g).abandons + 1 }
    cvb := if s.cvb.prep = .inFlight g ∨ s.cvb.prep = .complete g then
        ⟨s.cvb.active, Table.replicate 16 none, .none⟩
      else s.cvb
    evb := s.told (.commitAbandoned g s.csu.frame)
    csu := if ∃ h, h ≠ g ∧ (s.groupState h).holdsRecords = true then s.csu
      else { s.csu with readinessGiven := false, desyncHold := none } })

/-- A boundary of the master: the word it sends, by the first condition of R93 that holds and with the fields of R92, and what the
word and the frame triggers of the boundary make of the groups, the due queue, the nomination and the cut sequence. COMMIT_TIMEOUT
is the boundary with RDY reading held, where the nomination has waited its commit timeout by then, and nothing elsewhere (entry
13); its word is ABANDON. The records are those of the cut, evaluated; the ports, frames and fetches those of the end of a boundary.
(That a FRAME trigger not taken by its own row fires after the decision is the model's choice, entry 13; the order of a boundary's
effects is read by inference, entry 15, and so is what a master in STARTING hands over, entry 17.) -/
def Obligations.MasterBoundaryDecides : Prop :=
  (∀ (s : State) (others : Bool), s.clc.straps.role = .master → s.csu.timing = true → s.MasterGroups →
    let f := s.csu.frame + 1
    let released := s.csu.rdyReleased = true ∧ others = true
    let overdue := fun (g : GroupId) (since : Frame) => (s.groups.get g).commitTimeout ≤ (f - since).toNat
    let triggered := fun (r : GroupRec) => r.state = .armed ∧ r.trigger = .frame f
    ∃ (t : State) (w : SyncWord), exec (.masterFrameBoundary others) s = .next t
      ∧ w.frame = f ∧ w.blackout = s.cbi.state
      ∧ (∀ g since, s.csu.nomination = some (g, since) →
          w.kind = if released then .cut g
            else if overdue g since then .abandon g
            else if s.phase ≠ .running then .abandon g
            else .plain)
      ∧ (s.csu.nomination = none → s.phase = .running → ∀ h rest, s.due = h :: rest → w.kind = .nominate h)
      ∧ (s.csu.nomination = none → s.phase ≠ .running ∨ s.due = [] → w.kind = .plain)
      ∧ (∀ g, w.kind = .cut g → w.cutSequence = s.csu.cutSequence + 1 ∧ w.lastCut = some (g, f))
      ∧ ((∀ g, w.kind ≠ .cut g) → w.cutSequence = s.csu.cutSequence ∧ w.lastCut = s.csu.lastCut)
      ∧ (∀ g, t.groups.get g =
          if w.kind = .cut g then { s.groups.get g with
            state := .idle, lastCutFrame := some f, cuts := (s.groups.get g).cuts + 1 }
          else if w.kind = .abandon g then { s.groups.get g with
            state := .idle, abandons := (s.groups.get g).abandons + 1 }
          else if w.kind = .nominate g then { s.groups.get g with state := .nominated f }
          else if triggered (s.groups.get g) then { s.groups.get g with state := .due }
          else s.groups.get g)
      ∧ t.due = (match w.kind with | .nominate _ => s.due.tail | _ => s.due)
          ++ (List.finRange 8).filter (fun g => triggered (s.groups.get g))
      ∧ t.now = max s.now (s.csu.boundaryAt + Config.ticksPerSecond / s.rateNow.hertz)
      ∧ t.csu = { s.csu with
          frame := f
          boundaryAt := t.now
          fsync := some w
          nomination := match w.kind with
            | .plain => s.csu.nomination
            | .nominate g => some (g, f)
            | _ => none
          cutSequence := w.cutSequence
          lastCut := w.lastCut
          blackoutFlag := w.blackout
          readinessGiven := t.csu.readinessGiven
          desyncHold := t.csu.desyncHold
          rdyReleased := t.csu.rdyReleased }
      ∧ (s.phase ≠ .starting → ∃ r, t.evb.flags.get 0 = some r ∧ r.detail = .frameTick f)
      ∧ t = { s with
          now := t.now, csu := t.csu, bgNow := s.bg, rateNow := s.rate, groups := t.groups, due := t.due
          ptab := t.ptab, sdir := t.sdir, cvb := t.cvb, ports := t.ports, frames := t.frames, links := t.links
          cmp := t.cmp, fsc := t.fsc, evb := t.evb }
      ∧ ∃ m : State, t = ((m.evaluate.retestRdy).handOver w.blackout f).closeBoundary
        ∧ m = { s with
            now := t.now, bgNow := s.bg, rateNow := s.rate, groups := t.groups, due := t.due
            csu := { t.csu with
              blackoutFlag := s.csu.blackoutFlag, rdyReleased := s.csu.rdyReleased
              readinessGiven := m.csu.readinessGiven }
            ptab := m.ptab, sdir := m.sdir, cvb := m.cvb, evb := m.evb }
        ∧ (∀ g, w.kind = .cut g → m.ptab = (s.executeCut g f).ptab ∧ m.sdir = (s.executeCut g f).sdir
            ∧ m.cvb = (s.executeCut g f).cvb ∧ m.evb = (s.executeCut g f).evb)
        ∧ ((∀ g, w.kind ≠ .cut g) → m.ptab = s.ptab ∧ m.sdir = s.sdir)
        ∧ (∀ g, w.kind = .abandon g → m.cvb = (s.executeAbandon g).cvb ∧ m.evb = s.told (.commitAbandoned g f))
        ∧ (∀ g, w.kind = .nominate g → m.cvb = s.cvb.begin s.held g ∧ m.evb = s.evb)
        ∧ (w.kind = .plain → m.cvb = s.cvb ∧ m.evb = s.evb))
  ∧ ((∀ (s : State) (g : GroupId) (since : Frame), s.clc.straps.role = .master → s.csu.timing = true →
    s.csu.nomination = some (g, since) → (s.groups.get g).commitTimeout ≤ (s.csu.frame + 1 - since).toNat →
    exec .commitTimeout s = exec (.masterFrameBoundary false) s
      ∧ ∃ t w, exec .commitTimeout s = .next t ∧ t.csu.fsync = some w ∧ w.kind = .abandon g
          ∧ w.frame = s.csu.frame + 1 ∧ t.csu.nomination = none)
  ∧ ∀ s : State, (∀ g since, s.csu.nomination = some (g, since) →
      (s.csu.frame + 1 - since).toNat < (s.groups.get g).commitTimeout) → exec .commitTimeout s = .next s)

/-- Every good word is a frame boundary of a locked slave: its number, the timer, the flag; whatever the part held, its cut
sequence is the word's once the word is acted on. The word acts on the groups and records by R96 to R99; then the records are
evaluated, RDY is re-tested, the flag handed over and the boundary ends. In STARTING a word only empties the lock count. (The order of
a boundary's effects is read by inference, entry 15; so are the groups a DESYNC names, entry 19.) -/
def Obligations.LockedWordTaken : Prop :=
  (∀ (s : State) (bytes : List Byte) (w : SyncWord), parseSyncWord bytes = some w → s.clc.straps.role = .slave → s.phase = .starting →
    exec (.syncWordArrival bytes) s = .next { s with csu := { s.csu with lockRun := 0 } })
  ∧ ∀ (s : State) (bytes : List Byte) (w : SyncWord), parseSyncWord bytes = some w →
    s.clc.straps.role = .slave → s.phase ≠ .starting → s.csu.sync = .locked →
    ∃ t, exec (.syncWordArrival bytes) s = .next t
      ∧ t.csu = { s.csu with
          frame := w.frame
          boundaryAt := s.now
          lossTimer := some s.now
          blackoutFlag := w.blackout
          cutSequence := w.cutSequence
          lastCut := if w.cutSequence = s.csu.cutSequence ∧ (∀ g, w.kind ≠ .cut g) then s.csu.lastCut else w.lastCut
          readinessGiven := t.csu.readinessGiven
          desyncHold := t.csu.desyncHold
          rdyReleased := t.csu.rdyReleased }
      ∧ (¬ (1 ≤ (w.frame - s.csu.frame).toNat ∧ (w.frame - s.csu.frame).toNat ≤ 2147483647) →
          (t.evb.flags.get 4).isSome = true)
      ∧ (w.blackout = true → s.csu.blackoutFlag = false →
          ∃ r, t.evb.flags.get 13 = some r ∧ r.detail = .blackout w.frame)
      ∧ (∃ r, t.evb.flags.get 0 = some r ∧ r.detail = .frameTick w.frame)
      ∧ t = { s with
          csu := t.csu, bgNow := s.bg, rateNow := s.rate, groups := t.groups
          ptab := t.ptab, sdir := t.sdir, cvb := t.cvb, ports := t.ports, frames := t.frames, links := t.links
          cmp := t.cmp, fsc := t.fsc, evb := t.evb }
      ∧ (s.GroupsInv →
          let opened := { s with
            csu := { s.csu with frame := w.frame, boundaryAt := s.now, lossTimer := some s.now }
            bgNow := s.bg, rateNow := s.rate
            evb := if 1 ≤ (w.frame - s.csu.frame).toNat ∧ (w.frame - s.csu.frame).toNat ≤ 2147483647 then s.evb
              else s.evb.record (.desync .frameBack w.frame w.cutSequence s.csu.cutSequence []) }
          ∃ k m : State, t = ((m.evaluate.retestRdy).handOver w.blackout w.frame).closeBoundary
            ∧ ((∀ g, w.kind ≠ .cut g) → opened.Checked s.csu.frame w k)
            ∧ (w.kind = .plain → m = k)
            ∧ (∀ g, w.kind = .nominate g → k.Nominates g w m)
            ∧ (∀ g, w.kind = .cut g → opened.CutsBy g w m)
            ∧ ∀ g, w.kind = .abandon g → k.AbandonsBy g m)

/-- What a word makes of the groups of a locked slave, by its kind, its sequence, whether a word was missed, and what the part
holds. -/
def Obligations.WordsMoveGroups : Prop :=
  ∀ (s t : State) (bytes : List Byte) (w : SyncWord), parseSyncWord bytes = some w →
    s.clc.straps.role = .slave → s.phase ≠ .starting → s.csu.sync = .locked → s.GroupsInv →
    exec (.syncWordArrival bytes) s = .next t →
    let same := w.cutSequence = s.csu.cutSequence
    let inStep := same ∧ w.frame = s.csu.frame + 1
    let missed := same ∧ w.frame ≠ s.csu.frame + 1
    let holdsNone := ∀ h, ¬ (s.groupState h).Locks
    let nominated := fun h => ∃ f, s.groupState h = .nominated f
    let late := fun h f => w.cutSequence = s.csu.cutSequence + 1 ∧ w.lastCut = some (h, f) ∧ nominated h
      ∧ s.csu.readinessGiven = true
    let apart := ¬ same ∧ ∀ h f, ¬ late h f
    let reported := (t.evb.flags.get 4).isSome = true
    let closed := fun (h : GroupId) (cutFrame : Option Frame) => s.groups.set h ((s.groups.get h).ended cutFrame)
    let nominates := fun (gs : Table GroupRec 8) (g : GroupId) => t.groups = gs.set g { gs.get g with state := .nominated w.frame }
      ∧ t.cvb.prep.group = some g
    let abandoned := fun h => t.groups = closed h none
      ∧ t.csu.readinessGiven = false ∧ t.csu.desyncHold = none ∧ t.csu.rdyReleased = false
    let refused := fun g => t.groups = s.groups ∧ t.csu.desyncHold = some g ∧ t.csu.rdyReleased = false ∧ reported
    (∀ g, w.kind = .nominate g →
      (same → holdsNone → nominates s.groups g)
      ∧ (∀ h, inStep → nominated h → refused g)
      ∧ (∀ h, missed → nominated h → nominates (closed h none) g)
      ∧ (∀ h f, late h f → nominates (closed h (some f)) g)
      ∧ (apart → holdsNone → nominates s.groups g ∧ reported)
      ∧ ∀ h, apart → nominated h → refused g)
    ∧ (∀ g, w.kind = .cut g → t.groups = closed g (some w.frame))
    ∧ (∀ g, w.kind = .abandon g →
      (same → holdsNone → t.groups = s.groups)
      ∧ (inStep → nominated g → abandoned g)
      ∧ (∀ h, inStep → s.groupState g = .idle → s.csu.desyncHold = some g → nominated h → abandoned h)
      ∧ (inStep → s.groupState g = .idle → s.csu.desyncHold ≠ some g → t.groups = s.groups)
      ∧ (∀ h, missed → nominated h → abandoned h)
      ∧ (∀ h f, late h f → t.groups = closed h (some f))
      ∧ (apart → nominated g → abandoned g ∧ reported)
      ∧ (∀ h, apart → s.groupState g = .idle → s.csu.desyncHold = some g → nominated h → abandoned h ∧ reported)
      ∧ (apart → s.groupState g = .idle → s.csu.desyncHold ≠ some g ∨ holdsNone → t.groups = s.groups ∧ reported))
    ∧ (w.kind = .plain →
      (inStep ∨ (same ∧ holdsNone) → t.groups = s.groups)
      ∧ (∀ h, missed → nominated h → abandoned h)
      ∧ (∀ h f, late h f → t.groups = closed h (some f))
      ∧ (apart → t.groups = s.groups ∧ reported))

/-- A re-test sets the drive of RDY from the conditions of R100, each of them, and a release marks that readiness was given. A
preparation in flight completes with the shadow lists of the post-cut view as it stands (entry 25), and RDY is re-tested; nothing
happens where none is in flight (entry 6). -/
def Obligations.ReadinessFollowsConditions : Prop :=
  (∀ s : State, s.GroupsInv →
    (s.retestRdy.csu.rdyReleased = true ↔ s.ReadyToCut
      ∧ (s.clc.straps.role = .slave →
          ∃ since, s.csu.lossTimer = some since ∧ s.now - since ≤ 2 * (Config.ticksPerSecond / s.rateNow.hertz)))
    ∧ s.retestRdy = { s with csu := { s.csu with
        rdyReleased := s.retestRdy.csu.rdyReleased
        readinessGiven := s.csu.readinessGiven || s.retestRdy.csu.rdyReleased } })
  ∧ ((∀ (s : State) (g : GroupId), s.cvb.prep = .inFlight g →
    ∃ t, exec .preparationComplete s = .next t
      ∧ t = { s with
          cvb := {
            active := s.cvb.active
            shadow := Table.ofFn fun i => (s.held.rects.get i).map fun r =>
              buildCoverage (some r) (postCutView s.ptab g)
            prep := .complete g }
          csu := { s.csu with
            rdyReleased := t.csu.rdyReleased, readinessGiven := s.csu.readinessGiven || t.csu.rdyReleased } }
      ∧ (s.GroupsInv → (t.csu.rdyReleased = true ↔ t.ReadyToCut ∧ (s.clc.straps.role = .slave →
          ∃ since, s.csu.lossTimer = some since ∧ s.now - since ≤ 2 * (Config.ticksPerSecond / s.rateNow.hertz)))))
  ∧ ∀ s : State, (∀ g, s.cvb.prep ≠ .inFlight g) → exec .preparationComplete s = .next s)

/-- WORD_OVERDUE on a locked slave: RDY is held low. FREE_RUN_BOUNDARY on a slave out of lock: the next frame of its own timing,
with the records as they are, and the end of a boundary. (That the row brings the clock to two periods and one tick after the last word
is the model's choice, entry 3; the periods are those of the rate in force, read by inference, entry 37.) -/
def Obligations.SlaveOwnTiming : Prop :=
  (∀ (s : State) (since : Nat), s.clc.straps.role = .slave → s.csu.sync = .locked → s.csu.lossTimer = some since →
    exec .wordOverdue s = .next { s with
      now := max s.now (since + 2 * (Config.ticksPerSecond / s.rateNow.hertz) + 1)
      csu := { s.csu with rdyReleased := false } })
  ∧ ∀ s : State, s.clc.straps.role = .slave → s.csu.sync ≠ .locked → s.csu.timing = true →
    let now := max s.now (s.csu.boundaryAt + Config.ticksPerSecond / s.rateNow.hertz)
    ∃ t, exec .freeRunBoundary s = .next t
      ∧ t = State.closeBoundary { s with
          now := now, bgNow := s.bg, rateNow := s.rate
          csu := { s.csu with frame := s.csu.frame + 1, boundaryAt := now, rdyReleased := false } }
      ∧ (s.phase ≠ .starting → ∃ r, t.evb.flags.get 0 = some r ∧ r.detail = .frameTick (s.csu.frame + 1))
      ∧ t = { s with
          now := now, bgNow := s.bg, rateNow := s.rate
          csu := { s.csu with frame := s.csu.frame + 1, boundaryAt := now, rdyReleased := false }
          ports := t.ports, frames := t.frames, links := t.links, cmp := t.cmp, fsc := t.fsc, evb := t.evb }

/-- SYNC_LOSS on a locked slave: LOST, three frames on, RDY held; a group for which readiness was given is IN_DOUBT, another is
abandoned; no record is touched. (Its SYNC_LOST carries the frame number adopted: entry 20.) -/
def Obligations.SyncIsLost : Prop :=
  ∀ (s : State) (since : Nat), s.clc.straps.role = .slave → s.csu.sync = .locked → s.csu.lossTimer = some since →
    s.GroupsInv →
    ∃ t, exec .syncLoss s = .next t
      ∧ t.now = max s.now (since + 3 * (Config.ticksPerSecond / s.rateNow.hertz))
      ∧ t.csu = { s.csu with
          frame := s.csu.frame + 3, boundaryAt := t.now, sync := .lost, lockRun := 0, lastCounted := none
          lossTimer := none, timing := true, rdyReleased := false
          readinessGiven := t.csu.readinessGiven, desyncHold := t.csu.desyncHold }
      ∧ (s.phase ≠ .starting → ∃ r, t.evb.flags.get 10 = some r ∧ r.detail = .syncLost (s.csu.frame + 3))
      ∧ t = { s with
          now := t.now, csu := t.csu, bgNow := s.bg, rateNow := s.rate, groups := t.groups, cvb := t.cvb
          ports := t.ports, frames := t.frames, links := t.links, cmp := t.cmp, fsc := t.fsc, evb := t.evb }
      ∧ ∃ m : State, t = m.closeBoundary
        ∧ m = { s with
            now := t.now, csu := t.csu, bgNow := s.bg, rateNow := s.rate, groups := t.groups, cvb := t.cvb, evb := m.evb }
        ∧ (let lost := { s with evb := s.told (.syncLost (s.csu.frame + 3)) };
          ((∀ g, ¬ (s.groupState g).Locks) → t.groups = s.groups ∧ t.cvb = s.cvb ∧ m.evb = lost.evb)
          ∧ (∀ g f, s.groupState g = .nominated f → s.csu.readinessGiven = true →
              t.groups = s.groups.set g { s.groups.get g with state := .inDoubt f } ∧ t.cvb = s.cvb
                ∧ t.csu.readinessGiven = true ∧ m.evb = lost.told (.inDoubt g f))
          ∧ (∀ g f, s.groupState g = .nominated f → s.csu.readinessGiven = false →
              t.groups = s.groups.set g ((s.groups.get g).ended none)
                ∧ t.cvb = (if s.cvb.prep = .inFlight g ∨ s.cvb.prep = .complete g then
                    ⟨s.cvb.active, Table.replicate 16 none, .none⟩ else s.cvb)
                ∧ t.csu.readinessGiven = false ∧ t.csu.desyncHold = none
                ∧ m.evb = lost.told (.commitAbandoned g (s.csu.frame + 3))))

/-- A word counted toward lock that is not the fourth changes the count and hands its flag on, and nothing else. The fourth
counted word locks the slave at a boundary: the word's number and sequence are the part's; a group held IN_DOUBT is abandoned, cut
late or let go, by the comparison of R105; the records are evaluated; a NOMINATE is then acted on, while a CUT, and an ABANDON since no
group is held, do nothing; RDY is re-tested, the flag handed over and the boundary ends. (The groups a DESYNC names are read by
inference: entry 19.) -/
def Obligations.WordsCountedToRelock : Prop :=
  (∀ (s : State) (bytes : List Byte) (w : SyncWord) (run : Nat), parseSyncWord bytes = some w →
    s.clc.straps.role = .slave → s.phase ≠ .starting → s.csu.sync ≠ .locked →
    run < 4 → s.CountsTo w run →
    exec (.syncWordArrival bytes) s = .next { s with
      csu := { s.csu with
        lockRun := run, lastCounted := some (w.frame, s.now), blackoutFlag := w.blackout }
      evb := if w.blackout && !s.csu.blackoutFlag then s.evb.record (.blackout w.frame) else s.evb })
  ∧ (∀ (s : State) (bytes : List Byte) (w : SyncWord) (run : Nat), parseSyncWord bytes = some w →
    s.clc.straps.role = .slave → s.phase ≠ .starting → s.csu.sync ≠ .locked →
    4 ≤ run → s.CountsTo w run → s.GroupsInv →
    ∃ t, exec (.syncWordArrival bytes) s = .next t
      ∧ t.csu = { s.csu with
          frame := w.frame, boundaryAt := s.now, sync := .locked, lockRun := 0, lastCounted := none
          lossTimer := some s.now, timing := false, cutSequence := w.cutSequence, blackoutFlag := w.blackout
          lastCut := t.csu.lastCut, readinessGiven := t.csu.readinessGiven, desyncHold := t.csu.desyncHold
          rdyReleased := t.csu.rdyReleased }
      ∧ (w.cutSequence ≠ s.csu.cutSequence ∨ s.csu.sync = .unlocked → t.csu.lastCut = w.lastCut)
      ∧ (∃ r, t.evb.flags.get 11 = some r ∧ r.detail = .syncRegained w.frame)
      ∧ t = { s with
          csu := t.csu, bgNow := s.bg, rateNow := s.rate, groups := t.groups
          ptab := t.ptab, sdir := t.sdir, cvb := t.cvb, ports := t.ports, frames := t.frames, links := t.links
          cmp := t.cmp, fsc := t.fsc, evb := t.evb }
      ∧ (let same := w.cutSequence = s.csu.cutSequence
        let late := fun g at' => w.cutSequence = s.csu.cutSequence + 1 ∧ w.lastCut = some (g, at')
        let back := { s with evb := s.evb.record (.syncRegained w.frame) }
        let gap := fun gs => back.told (.desync .relockGap w.frame w.cutSequence s.csu.cutSequence gs)
        let dropped := fun g => if s.cvb.prep = .inFlight g ∨ s.cvb.prep = .complete g then
            (⟨s.cvb.active, Table.replicate 16 none, .none⟩ : Cvb) else s.cvb
        ∃ k m : State, t = ((m.retestRdy).handOver w.blackout w.frame).closeBoundary
          ∧ k = { s with
              bgNow := s.bg, rateNow := s.rate, groups := k.groups
              csu := { t.csu with
                blackoutFlag := s.csu.blackoutFlag, rdyReleased := s.csu.rdyReleased
                readinessGiven := false, desyncHold := none }
              ptab := k.ptab, sdir := k.sdir, cvb := k.cvb, evb := k.evb }
          ∧ (∀ g f, s.groupState g = .inDoubt f →
              (same → k.groups = s.groups.set g ((s.groups.get g).ended none) ∧ k.ptab = s.ptab ∧ k.sdir = s.sdir
                ∧ k.cvb = dropped g ∧ k.evb = back.told (.commitAbandoned g w.frame))
              ∧ (∀ at', late g at' → k.groups = s.groups.set g ((s.groups.get g).ended (some at'))
                ∧ k.ptab = (s.executeCut g at').ptab ∧ k.sdir = (s.executeCut g at').sdir
                ∧ k.cvb = (s.executeCut g at').cvb ∧ k.evb = (back.executeCut g at').evb)
              ∧ (¬ same → (∀ at', ¬ late g at') → k.groups = s.groups.set g { s.groups.get g with state := .idle }
                ∧ k.ptab = s.ptab ∧ k.sdir = s.sdir ∧ k.cvb = dropped g ∧ k.evb = gap [g]))
          ∧ ((∀ g, ¬ (s.groupState g).Locks) → k.groups = s.groups ∧ k.ptab = s.ptab ∧ k.sdir = s.sdir ∧ k.cvb = s.cvb
              ∧ k.evb = if s.csu.sync = .lost ∧ ¬ same then gap [] else back.evb)
          ∧ (∀ g, w.kind = .nominate g → m = { k.evaluate with
              groups := k.groups.set g { k.groups.get g with state := .nominated w.frame }
              cvb := k.evaluate.cvb.begin s.held g })
          ∧ ((∀ g, w.kind ≠ .nominate g) → m = k.evaluate)))

/-! ### Coverage, composition and tile ports -/

/-- The two sets a list is built from, and the list built: the placements of the set that meet the tile, the 12 latest in
composition order, with the number left out. -/
def Obligations.ListsBuilt : Prop :=
  (∀ (s : State) (i : PlacementId) (v : Values),
    (i, v) ∈ liveSet s.ptab ↔ ∃ g a b, (∃ p, s.ptab.get i = .live g v a b p) ∨ ∃ f, s.ptab.get i = .fading g v a b f)
  ∧ (∀ (s : State) (g : GroupId) (i : PlacementId) (v : Values),
      (i, v) ∈ postCutView s.ptab g ↔
        s.ptab.get i = .staged g v
        ∨ (∃ h a b p, h ≠ g ∧ s.ptab.get i = .live h v a b p)
        ∨ (∃ a b, s.ptab.get i = .live g v a b none)
        ∨ (∃ old a b restart, s.ptab.get i = .live g old a b (some (.replace v restart)))
        ∨ (∃ a b, s.ptab.get i = .live g v a b (some .retire) ∧ v.fadeOut ≠ 0)
        ∨ ∃ h a b f, s.ptab.get i = .fading h v a b f)
  ∧ (∀ set : List Member, buildCoverage none set = ⟨[], 0⟩)
  ∧ ∀ (r : Rect) (set : List Member), (set.map Prod.fst).Nodup →
      let meets := fun (m : Member) => m ∈ set ∧ m.2.dx < r.x + r.w ∧ r.x < m.2.dx + m.2.dw
        ∧ m.2.dy < r.y + r.h ∧ r.y < m.2.dy + m.2.dh
      ∃ order : List Member, (∀ m, m ∈ order ↔ meets m) ∧ order.Nodup ∧ order.Pairwise composedBefore
        ∧ (buildCoverage (some r) set).ids = (order.drop (order.length - 12)).map Prod.fst
        ∧ (buildCoverage (some r) set).excluded = order.length - 12

/-- From a placement's source to the pixel sent. Source columns and rows: for every wall point inside a placement they lie inside its
source rectangle, so no clamp is needed. The stored pixel's byte, the cell shown, the fade weights and the effective weight by their
formulas. Key and widening: the stored value is compared before it is widened. An entry contributes where it covers the point, has
weight above 0 and is not transparent; it is blended channel by channel. The point starts as the background, takes the entries in their
order and is scaled by the level, which never raises a channel. A line's fetch holds one run for each entry of weight above 0 that meets
the line, from the source pixel of the first covered point to that of the last, and every pixel the line reads lies in it. Weights stay
in 0 to 256, channels in 0 to 255. -/
def Obligations.CompositionArithmetic : Prop :=
  (∀ (v : Values) (x y : Nat), 1 ≤ v.dw → 1 ≤ v.dh → 1 ≤ v.sw → 1 ≤ v.sh →
    v.stepX = v.sw * 65536 / v.dw → v.stepY = v.sh * 65536 / v.dh →
    v.dx ≤ x → x < v.dx + v.dw → v.dy ≤ y → y < v.dy + v.dh →
    sourceColumn v x = v.sx + ((x - v.dx) * v.stepX + v.stepX / 2) / 65536
      ∧ v.sx ≤ sourceColumn v x ∧ sourceColumn v x < v.sx + v.sw
      ∧ sourceRow v y = v.sy + ((y - v.dy) * v.stepY + v.stepY / 2) / 65536
      ∧ v.sy ≤ sourceRow v y ∧ sourceRow v y < v.sy + v.sh)
  ∧ (∀ (d : Desc) (column row : Nat), pixelAddress d column row
      = d.basePage * 4096 + (row * d.width + column) * (match d.format with | .full => 4 | .half => 2))
  ∧ (∀ (v : Values) (cells age : Nat), cellAt v cells age = match v.cellMode with
      | .loop => (v.firstCell + age / v.cellRate) % cells
      | .onceHold => min (v.firstCell + age / v.cellRate) (cells - 1)
      | .onceRetire => min (v.firstCell + age / v.cellRate) (cells - 1))
  ∧ (∀ (v : Values) (age j : Nat),
      fadeInWeight v age = (if age < v.fadeIn then 256 * (age + 1) / (v.fadeIn + 1) else 256)
      ∧ fadeOutWeight v j = (if j < v.fadeOut then 256 * (v.fadeOut - j) / (v.fadeOut + 1) else 0)
      ∧ fadeInWeight v age ≤ 256 ∧ fadeOutWeight v j ≤ 256
      ∧ (v.alpha ≤ 256 → effectiveWeight v (min (fadeInWeight v age) (fadeOutWeight v j)) ≤ 256))
  ∧ (∀ (f since start : Frame) (g : GroupId) (v : Values) (b : Frame) (p : Option Pending),
      (Placement.live g v since b p).fadeWeight f = fadeInWeight v (f - since).toNat
      ∧ (Placement.fading g v since b start).fadeWeight f
        = min (fadeInWeight v (f - since).toNat) (fadeOutWeight v (f - start).toNat))
  ∧ (∀ (v : Values) (fade : Nat), effectiveWeight v fade = v.alpha * fade / 256)
  ∧ (∀ (bytes : Nat → Byte) (d : Desc) (a : Nat), d.format = .full →
      let r := (bytes a).toNat
      let g := (bytes (a + 1)).toNat
      let b := (bytes (a + 2)).toNat
      sourceColour bytes d a = if d.key = some (.full r g b) then none else some ⟨r, g, b⟩)
  ∧ (∀ (bytes : Nat → Byte) (d : Desc) (a : Nat), d.format = .half →
      let n := (bytes a).toNat + 256 * (bytes (a + 1)).toNat
      sourceColour bytes d a
        = if d.key = some (.half n) then none else some ⟨widen5 (n / 2048), widen6 (n / 32 % 64), widen5 (n % 32)⟩)
  ∧ (∀ n : Nat, n ≤ 31 → widen5 n = n * 8 + n / 4 ∧ widen5 n ≤ 255 ∧ widen5 n / 8 = n)
  ∧ (∀ n : Nat, n ≤ 63 → widen6 n = n * 4 + n / 16 ∧ widen6 n ≤ 255 ∧ widen6 n / 4 = n)
  ∧ widen5 0 = 0 ∧ widen5 31 = 255 ∧ widen6 0 = 0 ∧ widen6 63 = 255
  ∧ (∀ w s c : Nat, w ≤ 256 → s ≤ 255 → c ≤ 255 →
      blendChannel w s c = (s * w + c * (256 - w) + 128) / 256 ∧ blendChannel w s c ≤ 255
        ∧ (w = 256 → blendChannel w s c = s) ∧ (w = 0 → blendChannel w s c = c))
  ∧ (∀ (bytes : Nat → Byte) (e : Entry) (x y : Nat),
      let covers := e.values.dx ≤ x ∧ x < e.values.dx + e.values.dw ∧ e.values.dy ≤ y ∧ y < e.values.dy + e.values.dh
      (∀ d, e.desc = some d → covers → 0 < e.weight → e.colourAt bytes x y = sourceColour bytes d
        (pixelAddress d (sourceColumn e.values x) (e.cell * (d.height / d.cells) + sourceRow e.values y)))
      ∧ (¬ covers ∨ e.weight = 0 → e.colourAt bytes x y = none))
  ∧ (∀ (bytes : Nat → Byte) (x y : Nat) (c s : Rgb) (e : Entry),
      (e.colourAt bytes x y = some s →
        e.drawOver bytes x y c = ⟨(s.red * e.weight + c.red * (256 - e.weight) + 128) / 256,
          (s.green * e.weight + c.green * (256 - e.weight) + 128) / 256,
          (s.blue * e.weight + c.blue * (256 - e.weight) + 128) / 256⟩)
      ∧ (e.colourAt bytes x y = none → e.drawOver bytes x y c = c))
  ∧ (∀ (bytes : Nat → Byte) (c : Rgb) (level x y : Nat),
      composePoint bytes c level [] x y = ⟨c.red * level / 256, c.green * level / 256, c.blue * level / 256⟩
      ∧ (level ≤ 256 → c.red * level / 256 ≤ c.red ∧ c.green * level / 256 ≤ c.green ∧ c.blue * level / 256 ≤ c.blue)
      ∧ ∀ (e : Entry) (later : List Entry),
          composePoint bytes c level (e :: later) x y = composePoint bytes (e.drawOver bytes x y c) level later x y)
  ∧ (∀ (bytes : Nat → Byte) (background : Rgb) (f : FrameRec) (px py : Nat), px < f.panelW →
      (composeLine bytes background f py).length = f.panelW
      ∧ (composeLine bytes background f py)[px]?
        = some (composePoint bytes background f.level f.entries (f.originX + px) (f.originY + py)))
  ∧ (∀ (f : FrameRec) (py : Nat), lineRuns f py = f.entries.filterMap fun e => e.run f py)
  ∧ (∀ (f : FrameRec) (py : Nat) (e : Entry),
      let v := e.values
      let y := f.originY + py
      let first := max f.originX v.dx
      let beyond := min (f.originX + f.panelW) (v.dx + v.dw)
      let meets := 0 < e.weight ∧ v.dy ≤ y ∧ y < v.dy + v.dh ∧ first < beyond
      (e.desc = none ∨ ¬ meets → e.run f py = none)
      ∧ ∀ d, e.desc = some d → meets →
        let row := e.cell * (d.height / d.cells) + sourceRow v y
        let bytes := match d.format with | .full => 4 | .half => 2
        ∃ start length, e.run f py = some (start, length)
          ∧ start = d.basePage * 4096 + (row * d.width + sourceColumn v first) * bytes
          ∧ length = (sourceColumn v (beyond - 1) + 1 - sourceColumn v first) * bytes
          ∧ ∀ x, first ≤ x → x < beyond → start ≤ pixelAddress d (sourceColumn v x) row
              ∧ pixelAddress d (sourceColumn v x) row + bytes ≤ start + length)
  ∧ ∀ (bytes : Nat → Byte) (background : Rgb) (level : Nat) (entries : List Entry) (x y : Nat), level ≤ 256 →
      background.red ≤ 255 → background.green ≤ 255 → background.blue ≤ 255 → (∀ e ∈ entries, e.weight ≤ 256) →
      let p := composePoint bytes background level entries x y
      p.red ≤ 255 ∧ p.green ≤ 255 ∧ p.blue ≤ 255

/-- SET_BACKGROUND and TILE_MODE write what they carry, or nothing where a test fails; the frame in progress is not touched. (That
TILE_MODE answers the stored level of every selected tile, carried or not, is read by inference: entry 21.) -/
def Obligations.PictureSettings : Prop :=
  (∀ (s : State) (unit : Nat) (c : Rgb), s.Takes unit 23 →
    exec (.setBackground unit c) s = .next (
      if c.red ≤ 255 ∧ c.green ≤ 255 ∧ c.blue ≤ 255 then
        State.replied { s with bg := c } unit (.setBackground c) .ok .empty
      else s.replied unit (.setBackground c) .badValue .empty))
  ∧ (∀ (s : State) (unit selector mode : Nat) (flat : Option Rgb) (level : Option Nat), s.Takes unit 25 →
      16 < selector ∨ 4 < mode ∨ (∃ c, flat = some c ∧ (255 < c.red ∨ 255 < c.green ∨ 255 < c.blue)) →
      exec (.tileMode unit selector mode flat level) s
        = .next (s.replied unit (.tileMode selector mode flat level) .badValue .empty))
  ∧ ∀ (s : State) (unit selector mode : Nat) (m : Mode) (flat : Option Rgb) (level : Option Nat), s.Takes unit 25 →
      selector ≤ 16 → (mode, m) ∈ [(0, Mode.picture), (1, .flat), (2, .black), (3, .hold), (4, .idle)] →
      (∀ c, flat = some c → c.red ≤ 255 ∧ c.green ≤ 255 ∧ c.blue ≤ 255) →
      let stored := fun (t : TileId) => match level with | none => (s.tiles.get t).level | some n => min n 256
      exec (.tileMode unit selector mode flat level) s = .next (State.replied
        { s with tiles := Table.ofFn fun t =>
            if selector = 16 ∨ selector = t.val then { s.tiles.get t with
              mode := m
              flat := match flat with | none => (s.tiles.get t).flat | some c => c
              level := stored t }
            else s.tiles.get t }
        unit (.tileMode selector mode flat level) .ok
        (.levels (((List.finRange 16).filter fun t => selector = 16 ∨ selector = t.val).map fun t => (t, stored t))))

/-- TILE_POWER stores the warm-up it carries and switches the ports it selects by the table of R152; each change of state is reported,
with the states and the tile where one port changes, and with the tile of every port that changes in the mask. (That missed keeps its
value where the command takes a port out of UP, and in every state outside UP, is read by inference: entry 35.) -/
def Obligations.PortsSwitched : Prop :=
  (∀ (s : State) (unit selector switch : Nat) (warmUp : Option Nat), s.Takes unit 24 → 16 < selector ∨ 1 < switch →
    exec (.tilePower unit selector switch warmUp) s
      = .next (s.replied unit (.tilePower selector switch warmUp) .badValue .empty))
  ∧ ∀ (s : State) (unit selector switch : Nat) (warmUp : Option Nat), s.Takes unit 24 → selector ≤ 16 → switch ≤ 1 →
    let selected := fun (t : TileId) => selector = 16 ∨ selector = t.val
    let stored := fun (t : TileId) => match warmUp with
      | none => (s.tiles.get t).warmUp
      | some n => if n < 50 then 50 else if 1000 < n then 1000 else n - n % 10
    let begun := fun (t : TileId) => PortState.powering (s.now + stored t * Config.ticksPerMilli)
    ∃ u, exec (.tilePower unit selector switch warmUp) s = .next (State.replied u unit
          (.tilePower selector switch warmUp) .ok (.portStates
            (((List.finRange 16).filter fun t => selected t).map fun t => (t, (u.ports.get t).state.name))))
      ∧ u = { s with tiles := u.tiles, ports := u.ports, evb := u.evb }
      ∧ (∀ t, u.tiles.get t = if selected t then { s.tiles.get t with warmUp := stored t } else s.tiles.get t)
      ∧ (∀ t, ¬ selected t → u.ports.get t = s.ports.get t)
      ∧ (∀ t, selected t → u.ports.get t = { s.ports.get t with
          state := match (s.ports.get t).state, decide (switch = 1) with
          | .off, true => begun t
          | .off, false => .off
          | .powering left, true => .powering left
          | .powering _, false => .off
          | .training a n, true => .training a n
          | .training _ _, false => .draining .beforeBlack false
          | .up, true => .up
          | .up, false => .draining .beforeBlack false
          | .lost, true => .lost
          | .lost, false => .draining .beforeBlack false
          | .draining stage _, restart => .draining stage restart
          | .fault, true => begun t
          | .fault, false => .off })
      ∧ (∀ t, selected t → (∃ a n, (s.ports.get t).state = .training a n) → (s.frames.get t).kind = .none → switch = 0 →
          s.linkDrive t = .pattern ∧ u.linkDrive t = .nothing)
      ∧ s.ChangesMasked u ∧ ((∀ t, ¬ s.PortChanges u t) → u.evb = s.evb)
      ∧ (∀ t, s.PortChanges u t → (∀ k, s.PortChanges u k → k = t) →
          u.evb = s.told (.tileChange t (s.ports.get t).state.name (u.ports.get t).state.name none s.csu.frame))
      ∧ (∀ n, n ≠ 6 → u.evb.flags.get n = s.evb.flags.get n) ∧ u.evb.enables = s.evb.enables

/-- The rows that take one port's step by itself: the warm-up's end, the sixth boundary of an attempt, the third frame without
lock, the end of a drain (that a boundary row opens this port's frame too, of kind NONE, is the model's choice: entry 13; that its fetch,
cancelled, is no longer the one being served is read by inference: entry 41). The training pattern is on the link from the warm-up's
end and through the next attempt, and nothing after FAULT, LOST and OFF. (That a row does nothing where its
cause is absent is read by inference, entry 6, and so is that missed keeps its value outside UP, entry 35; a
drain's two reports to one flag, OFF and then POWERING, are one port's and come in the order of its states, entry 14.) -/
def Obligations.PortsStep : Prop :=
  (∀ (s : State) (t : TileId) (endsAt : Nat), (s.ports.get t).state = .powering endsAt →
    ∃ u, exec (.warmUpExpiry t) s = .next u
      ∧ u = { s with
          now := max s.now endsAt
          ports := s.ports.set t { s.ports.get t with state := .training 1 0 }
          evb := s.told (.tileChange t .powering .training (some 1) s.csu.frame) }
      ∧ s.linkDrive t = .nothing ∧ u.linkDrive t = .pattern)
  ∧ (∀ (s : State) (t : TileId) (attempt n : Nat), (s.ports.get t).state = .training attempt n → 5 ≤ n → attempt < 3 →
      ∃ u, exec (.trainingAttemptFail t) s = .next u
        ∧ s.PortClosed t { s.ports.get t with state := .training (attempt + 1) 0, lockSeen := false } u
        ∧ u.evb = s.evb ∧ u.linkDrive t = .pattern)
  ∧ (∀ (s : State) (t : TileId) (attempt n : Nat), (s.ports.get t).state = .training attempt n → 5 ≤ n → 3 ≤ attempt →
      ∃ u, exec (.trainingAttemptFail t) s = .next u
        ∧ s.PortClosed t { s.ports.get t with state := .fault, temperature := .ok, lockSeen := false } u
        ∧ u.evb = s.told (.tileChange t .training .fault none s.csu.frame) ∧ u.linkDrive t = .nothing)
  ∧ (∀ (s : State) (t : TileId), (s.ports.get t).state = .up → (s.ports.get t).lockSeen = false →
      2 ≤ (s.ports.get t).missed →
      ∃ u, exec (.tileLost t) s = .next u
        ∧ s.PortClosed t { s.ports.get t with state := .lost, missed := 3 } u
        ∧ u.evb = s.told (.tileChange t .up .lost none s.csu.frame) ∧ u.linkDrive t = .nothing)
  ∧ (∀ (s : State) (t : TileId), (s.ports.get t).state = .draining .blackSent false →
      ∃ u, exec (.drainEnd t) s = .next u
        ∧ s.PortClosed t { s.ports.get t with state := .off, temperature := .ok, lockSeen := false } u
        ∧ u.evb = s.told (.tileChange t .draining .off none s.csu.frame) ∧ u.linkDrive t = .nothing)
  ∧ (∀ (s : State) (t : TileId), (s.ports.get t).state = .draining .blackSent true →
      ∃ u, exec (.drainEnd t) s = .next u
        ∧ s.PortClosed t { s.ports.get t with
            state := .powering (s.now + (s.tiles.get t).warmUp * Config.ticksPerMilli)
            temperature := .ok, lockSeen := false } u
        ∧ u.linkDrive t = .nothing
        ∧ u.evb = (if s.phase = .starting then s.evb
            else (s.evb.record (.tileChange t .draining .off none s.csu.frame)).record
              (.tileChange t .off .powering none s.csu.frame)))
  ∧ ∀ (s : State) (t : TileId),
      ((∀ e, (s.ports.get t).state ≠ .powering e) → exec (.warmUpExpiry t) s = .next s)
      ∧ ((∀ a n, (s.ports.get t).state = .training a n → n < 5) → exec (.trainingAttemptFail t) s = .next s)
      ∧ ((s.ports.get t).state ≠ .up ∨ (s.ports.get t).lockSeen = true ∨ (s.ports.get t).missed < 2 →
          exec (.tileLost t) s = .next s)
      ∧ ((∀ r, (s.ports.get t).state ≠ .draining .blackSent r) → exec (.drainEnd t) s = .next s)

/-- A back-channel status is taken in TRAINING, UP, LOST and DRAINING: its class, its lock report by the state, the change from TRAINING to
UP reported, and TILE_HOT where the class passes to HOT. In any other state it changes nothing. -/
def Obligations.StatusesTaken : Prop :=
  (∀ (s : State) (t : TileId) (locked : Bool) (c : Temperature),
    (s.ports.get t).state = .off ∨ (∃ e, (s.ports.get t).state = .powering e) ∨ (s.ports.get t).state = .fault →
    exec (.backChannelStatus t locked c) s = .next s)
  ∧ ∀ (s : State) (t : TileId) (locked : Bool) (c : Temperature),
    (∃ a n, (s.ports.get t).state = .training a n) ∨ (s.ports.get t).state = .up ∨ (s.ports.get t).state = .lost
      ∨ (∃ st r, (s.ports.get t).state = .draining st r) →
    ∃ u, exec (.backChannelStatus t locked c) s = .next u
      ∧ u = { s with ports := s.ports.set t (u.ports.get t), evb := u.evb }
      ∧ (u.ports.get t).temperature = c
      ∧ ((∀ a n, (s.ports.get t).state ≠ .training a n) ∨ locked = false →
          (u.ports.get t).state = (s.ports.get t).state ∧ (u.ports.get t).missed = (s.ports.get t).missed)
      ∧ (∀ a n, (s.ports.get t).state = .training a n → locked = true →
          (u.ports.get t).state = .up ∧ (u.ports.get t).missed = 0 ∧ s.linkDrive t = .pattern
            ∧ ((s.frames.get t).kind = .none → u.linkDrive t = .nothing))
      ∧ ((s.ports.get t).state = .up → (u.ports.get t).lockSeen = ((s.ports.get t).lockSeen || locked))
      ∧ (c = .hot → (s.ports.get t).temperature ≠ .hot → s.phase ≠ .starting →
          ∃ r, u.evb.flags.get 7 = some r ∧ r.detail = .tileHot t s.csu.frame)
      ∧ (let heated := fun (e : Evb) =>
          if c = .hot ∧ (s.ports.get t).temperature ≠ .hot then State.told { s with evb := e } (.tileHot t s.csu.frame) else e
        (∀ a n, (s.ports.get t).state = .training a n → locked = true →
          u.evb = heated (s.told (.tileChange t .training .up none s.csu.frame)))
        ∧ ((∀ a n, (s.ports.get t).state ≠ .training a n) ∨ locked = false → u.evb = heated s.evb))

/-- What every boundary does to the ports and the frames they send. The ports step (R154 to R156) and each change of state is reported:
its detail where one port changes, the tile of every port that changes in the mask (R151). The frame of each tile: the kind by R156 and
R160, the level by R159, the panel size by R161, the header by R162, and, for PICTURE, the entries of the active list with their cells
and weights of this frame (R125). The fetches of the frame before are cancelled, lines not sent are dropped (R147); line 0 of each
PICTURE tile is requested, or formed at once where it needs no bytes (R138). FRAME_TICK is reported. Nothing else changes. (Read by
inference: the order within the boundary, entry 15; that missed keeps its value in the steps of a port outside UP, entry 35; that line
0's due time is rounded down once to a tick, entry 26; that a fetch cancelled is no longer the one being served, entry 41.) -/
def Obligations.FramesOpened : Prop :=
  ∀ (s : State), let u := s.closeBoundary
    u = { s with ports := u.ports, frames := u.frames, links := u.links, cmp := u.cmp, fsc := u.fsc, evb := u.evb }
    ∧ (s.phase = .starting → u.evb = s.evb)
    ∧ (s.phase ≠ .starting → ∃ r, u.evb.flags.get 0 = some r ∧ r.detail = .frameTick s.csu.frame)
    ∧ (s.phase ≠ .starting → s.ChangesMasked u)
    ∧ (let ticked := fun (e : Evb) => State.told { s with evb := e } (.frameTick s.csu.frame)
      ((∀ t, ¬ s.PortChanges u t) → u.evb = ticked s.evb)
      ∧ ∀ t, s.PortChanges u t → (∀ k, s.PortChanges u k → k = t) → u.evb = ticked
          (match (s.ports.get t).state with
            | .draining .blackSent true => State.told { s with evb := s.told (.tileChange t .draining .off none s.csu.frame) }
                (.tileChange t .off .powering none s.csu.frame)
            | _ => s.told (.tileChange t (s.ports.get t).state.name (u.ports.get t).state.name
                (match (u.ports.get t).state with | .training a _ => some a | _ => none) s.csu.frame)))
    ∧ (∀ n, n ≠ 0 → n ≠ 6 → u.evb.flags.get n = s.evb.flags.get n) ∧ u.evb.enables = s.evb.enables
    ∧ (let held := { s.fsc with fetches := u.fsc.fetches, burst := s.fsc.burst.map Burst.cancelled, serving := none }
      u.fsc = if s.phase = .starting then held else held.granted s.now)
    ∧ (∀ b, s.fsc.burst = some b → Burst.cancelled b = { b with kind := match b.kind with
        | .fetch t _ => .fetch t true
        | .load => .load })
    ∧ ∀ t : TileId,
      (u.ports.get t = match (s.ports.get t).state with
        | .training a n => if n + 1 < 6 then { s.ports.get t with state := .training a (n + 1), lockSeen := false }
            else if a < 3 then { s.ports.get t with state := .training (a + 1) 0, lockSeen := false }
            else { s.ports.get t with state := .fault, temperature := .ok, lockSeen := false }
        | .up =>
            if (s.ports.get t).lockSeen then { s.ports.get t with missed := 0, lockSeen := false }
            else if (s.ports.get t).missed + 1 < 3 then { s.ports.get t with
              missed := (s.ports.get t).missed + 1, lockSeen := false }
            else { s.ports.get t with state := .lost, missed := 3, lockSeen := false }
        | .lost => { s.ports.get t with state := .training 1 0, lockSeen := false }
        | .draining .beforeBlack r => { s.ports.get t with state := .draining .blackSent r, lockSeen := false }
        | .draining .blackSent false => { s.ports.get t with state := .off, temperature := .ok, lockSeen := false }
        | .draining .blackSent true => { s.ports.get t with
            state := .powering (s.now + (s.tiles.get t).warmUp * Config.ticksPerMilli)
            temperature := .ok, lockSeen := false }
        | _ => { s.ports.get t with lockSeen := false })
      ∧ (u.frames.get t).kind =
          (if (∃ r, (s.ports.get t).state = .draining .beforeBlack r) then .black
          else if (u.ports.get t).state ≠ .up then .none
          else if (s.tiles.get t).mode = .idle then .idle
          else if s.csu.blackoutFlag = true then .black
          else if s.phase ≠ .running then .black
          else if s.csu.sync ≠ .locked ∧ (s.tiles.get t).mode = .picture then .hold
          else if (s.tiles.get t).mode = .picture ∧ s.held.rects.get t = none then .black
          else match (s.tiles.get t).mode with
            | .picture => .picture
            | .flat => .flat
            | .black => .black
            | .hold => .hold
            | .idle => .idle)
      ∧ u.linkDrive t = (match (u.ports.get t).state with
          | .training _ _ => .pattern
          | _ => if (u.frames.get t).kind = .none then .nothing else .frame (u.frames.get t).kind)
      ∧ (u.frames.get t).level =
          (if (u.ports.get t).temperature = .hot then min (s.tiles.get t).level 128 else (s.tiles.get t).level)
      ∧ (u.frames.get t).flat = (s.tiles.get t).flat ∧ (u.frames.get t).nextLine = 0
      ∧ (u.frames.get t).temperature = (u.ports.get t).temperature
      ∧ (u.frames.get t).panelW = (if s.phase = .running then s.held.setting.panelW else s.geo.panelW)
      ∧ (u.frames.get t).panelH = (if s.phase = .running then s.held.setting.panelH else s.geo.panelH)
      ∧ (∀ r, s.held.rects.get t = some r → (u.frames.get t).originX = r.x ∧ (u.frames.get t).originY = r.y)
      ∧ ((u.frames.get t).kind ≠ .picture → (u.frames.get t).entries = [])
      ∧ ((u.frames.get t).kind = .picture →
          (u.frames.get t).entries = (s.cvb.active.get t).ids.filterMap fun i =>
            match s.ptab.get i with
            | .live _ v since _ _ => some ⟨v, s.cellOf v (s.csu.frame - since).toNat,
                effectiveWeight v ((s.ptab.get i).fadeWeight s.csu.frame), (s.surface v.surface).desc⟩
            | .fading _ v since _ _ => some ⟨v, s.cellOf v (s.csu.frame - since).toNat,
                effectiveWeight v ((s.ptab.get i).fadeWeight s.csu.frame), (s.surface v.surface).desc⟩
            | _ => none)
      ∧ ((u.frames.get t).kind ≠ .none → (u.links.get t).header = some
          ⟨s.csu.frame.setWidth 16,
            if (u.frames.get t).kind ∈ [.picture, .flat, .black] then (u.frames.get t).panelH else 0,
            (u.frames.get t).kind⟩ ∧ (u.links.get t).line = (s.links.get t).line)
      ∧ ((u.frames.get t).kind = .none → u.links.get t = s.links.get t)
      ∧ (let f := u.frames.get t
        let runs := lineRuns f 0
        let requested := f.kind = .picture ∧ 0 < f.panelH
        u.fsc.fetches.get t = (if requested ∧ runs ≠ [] then
            some ⟨0, s.csu.boundaryAt + Config.ticksPerSecond / s.rateNow.hertz / (f.panelH + 1), runs⟩
          else none)
        ∧ u.cmp.get t = { s.cmp.get t with
            formed := if requested ∧ runs = [] then some (composeLine s.storeByte s.bgNow f 0) else none })

/-! ### The frame store -/

/-- The grant rule: the store in use grants nothing; then the guaranteed load burst; then the fetch being served while no other is due
earlier, else the fetch due earliest, of equal ones the lowest tile; then a load burst the budget allows; else nothing. (That a load burst
sets the load mark of the window it is granted in and of no other is the model's choice, entry 39; how long a fetch counts as being
served is read by inference, entry 41.) -/
def Obligations.StoreGranted : Prop :=
  (∀ (now : Nat) (f : Fsc), f.burst ≠ none → f.granted now = f)
  ∧ (∀ (now : Nat) (f : Fsc) (u : UploadWrite), f.burst = none → f.upload = some u →
      f.owed = true ∨ ((∀ t, f.fetches.get t = none) ∧ 2 ≤ f.budget) →
      f.granted now = { f with
        burst := some ⟨.load, u.startByte + 256 * u.bursts, min 256 u.data.length, now + 2 * Config.ticksPerMicro⟩
        budget := f.budget - 2, loadMark := true, owed := false })
  ∧ (∀ (now : Nat) (f : Fsc) (t : TileId) (g : Fetch) (a n : Nat) (rest : List (Nat × Nat)), f.burst = none →
      f.upload = none ∨ f.owed = false → f.fetches.get t = some g → g.runs = (a, n) :: rest →
      let first := fun (v : TileId) (h : Fetch) =>
        g.due < h.due ∨ (g.due = h.due ∧ (f.serving = some t ∨ (t.val ≤ v.val ∧ (v ≠ t → f.serving ≠ some v))))
      (∀ v h, f.fetches.get v = some h → first v h) →
      f.granted now = { f with
        burst := some ⟨.fetch t false, a, min 256 n, now + Config.ticksPerMicro / 10⟩, serving := some t })
  ∧ ∀ (now : Nat) (f : Fsc), f.burst = none → (∀ t, f.fetches.get t = none) →
      f.upload = none ∨ (f.owed = false ∧ f.budget < 2) → f.granted now = f

/-- SET_PACING stores a code or refuses it; the code acts on the budget from the next window on; a window begins with the budget
of the code in force and with the guarantee owed where the window before gave the waiting write no burst. The code is 1 after
power-on and RST_ALL and is kept by the other resets; in STARTING the frame is dropped. (That a reset input's assertion applies the
reset's values as its release does is the model's choice: entry 16.) -/
def Obligations.PacingCodeActs : Prop :=
  (∀ (s : State) (unit : Nat) (c : Fin 4), s.Takes unit 29 →
    exec (.setPacing unit c.val) s
      = .next (State.replied { s with fsc := { s.fsc with pacing := c } } unit (.setPacing c.val) .ok (.pacing c)))
  ∧ (∀ (s : State) (unit code : Nat), s.Takes unit 29 → 4 ≤ code →
      exec (.setPacing unit code) s = .next (s.replied unit (.setPacing code) .badValue .empty))
  ∧ (∀ (s : State) (unit code : Nat), s.phase = .starting → exec (.setPacing unit code) s = .next s)
  ∧ (∀ s : State, s.phase ≠ .starting → exec .pacingWindow s = .next { s with
      now := max s.now (s.fsc.windowStart + 100 * Config.ticksPerMicro)
      fsc := Fsc.granted (max s.now (s.fsc.windowStart + 100 * Config.ticksPerMicro)) { s.fsc with
        owed := s.fsc.waitMark && !s.fsc.loadMark
        budget := 20 * (s.fsc.pacing.val + 1)
        loadMark := false
        waitMark := s.fsc.upload.isSome
        windowStart := s.fsc.windowStart + 100 * Config.ticksPerMicro } })
  ∧ (∀ s : State, s.phase = .starting → exec .pacingWindow s = .next s)
  ∧ (∀ (straps : Straps) (inputs : InputLevels) (s t : State), exec (.powerOn straps inputs) s = .next t → t.fsc.pacing = 1)
  ∧ (∀ s t : State, s.pins.rstAll = false → exec .rstAllAssert s = .next t → t.fsc.pacing = 1)
  ∧ (∀ (straps : Straps) (s t : State), s.pins.rstAll = true → exec (.rstAllRelease straps) s = .next t → t.fsc.pacing = 1)
  ∧ ∀ (s t : State) (c : Instr), c = .rstKeepAssert ∨ c = .rstKeepRelease ∨ (∃ unit, c = .softReset unit) → exec c s = .next t →
      t.fsc.pacing = s.fsc.pacing

/-- A burst that ends frees the store and the next one is granted: a fetch burst leaves the fetch its other runs, or the line
formed; a load burst has written its bytes and no other, and RDY is re-tested where the surface becomes READY; one whose fetch was
cancelled does nothing more. (That the last load burst's end
and UPLOAD_COMPLETE are one event, with one effect under either name, is the model's choice: entry 22; so is that the end of a load burst
leaves the load mark as it was, also in the window after the one it began in: entry 39. That a line is formed from the bytes as they stand
at its fetch's completion is read by inference, entry 36, and so is how long a fetch counts as being served, entry 41.) -/
def Obligations.BurstsEnd : Prop :=
  ∀ (s : State) (b : Burst), s.fsc.burst = some b →
    b.address + b.length ≤ storePages s.clc.straps.store * 4096 →
    let now := max s.now b.endsAt
    let grant := fun (f : Fsc) => if s.phase = .starting then f else f.granted now
    (∀ t, b.kind = .fetch t true → exec .burstEnd s = .next
      { s with now := now, fsc := grant { s.fsc with burst := none } })
    ∧ (∀ t g a n rest, b.kind = .fetch t false → s.fsc.fetches.get t = some g → g.runs = (a, n) :: rest →
        let left := if n ≤ 256 then rest else (a + 256, n - 256) :: rest
        exec .burstEnd s = .next { s with
          now := now
          fsc := grant { s.fsc with
            burst := none
            fetches := s.fsc.fetches.set t (if left = [] then none else some { g with runs := left })
            serving := if left = [] ∧ s.fsc.serving = some t then none else s.fsc.serving }
          cmp := if left = [] then s.cmp.set t { s.cmp.get t with
              formed := some (composeLine s.storeByte s.bgNow (s.frames.get t) g.line) }
            else s.cmp })
    ∧ (∀ u, b.kind = .load → s.fsc.upload = some u → b.length < u.data.length → ∃ t, exec .burstEnd s = .next t
        ∧ exec .uploadComplete s = .next s
        ∧ t = { s with
            now := now
            store := t.store
            fsc := grant { s.fsc with
              burst := none
              upload := some { u with data := u.data.drop b.length, bursts := u.bursts + 1 } } }
        ∧ (Memory.wf s.store → ∀ x, Memory.read t.store x =
            if b.address ≤ x ∧ x < b.address + b.length then u.data[x - b.address]? else Memory.read s.store x))
    ∧ ∀ u e i taken d loaded, b.kind = .load → s.fsc.upload = some u → u.data.length ≤ b.length →
        s.clc.executing = some e → e.job = .upload i taken → s.surface i = .loading d loaded →
        exec .uploadComplete s = exec .burstEnd s ∧ ∃ t, exec .burstEnd s = .next t
        ∧ t = { s with
            now := now
            store := t.store
            fsc := grant { s.fsc with burst := none, upload := none, waitMark := false, owed := false }
            sdir := s.sdir.set i { s.sdir.get i with
              state := if loaded + taken = d.totalBytes then .ready d else .loading d (loaded + taken) }
            clc := { s.clc with
              executing := none
              response := if e.broadcast then s.clc.response
                else some ⟨.ok, e.code, e.overrun, .uploaded taken (loaded + taken)⟩
              lastBroadcast := if e.broadcast then some (e.code, .ok) else s.clc.lastBroadcast }
            evb := if loaded + taken = d.totalBytes then s.told (.surfaceReady i) else s.evb
            csu := t.csu }
        ∧ (loaded + taken = d.totalBytes → s.RetestedAs t) ∧ (loaded + taken ≠ d.totalBytes → t.csu = s.csu)
        ∧ (Memory.wf s.store → ∀ x, Memory.read t.store x =
            if b.address ≤ x ∧ x < b.address + u.data.length then u.data[x - b.address]? else Memory.read s.store x)

/-- A line at its due time, in any phase: FLAT and BLACK lines as the frame decided them; a PICTURE line as formed, or, where its fetch
is not complete, the line before it again (the background on line 0, or where there is none before), counted and reported, its fetch
cancelled. Then the next line's fetch joins the queue, or is complete at once. Other tiles are not touched. (A due time is rounded down
once: entry 26. A fetch cancelled is no longer the one being served: entry 41. The lines of a frame kept through
a reset: entries 23 and 38. That the row does nothing where no line is due is read by inference: entry 6.) -/
def Obligations.LinesSent : Prop :=
  ∀ (s : State) (t : TileId),
    let f := s.frames.get t
    let dueOf := fun line => s.csu.boundaryAt + (line + 1) * (Config.ticksPerSecond / s.rateNow.hertz) / (f.panelH + 1)
    let now := max s.now (dueOf f.nextLine)
    let grant := fun (f : Fsc) => if s.phase = .starting then f else f.granted now
    let solid := fun (c : Rgb) => List.replicate f.panelW
      (⟨c.red * f.level / 256, c.green * f.level / 256, c.blue * f.level / 256⟩ : Rgb)
    (f.kind ∈ [.hold, .idle, .none] ∨ f.panelH ≤ f.nextLine → exec (.lineDue t) s = .next s)
    ∧ (∀ c : Rgb, f.nextLine < f.panelH → (f.kind = .flat ∧ c = f.flat) ∨ (f.kind = .black ∧ c = ⟨0, 0, 0⟩) →
        exec (.lineDue t) s = .next { s with
          now := now
          links := s.links.set t { s.links.get t with line := some (solid c) }
          frames := s.frames.set t { f with nextLine := f.nextLine + 1 }
          fsc := grant s.fsc })
    ∧ (f.nextLine < f.panelH → f.kind = .picture →
        let runs := lineRuns f (f.nextLine + 1)
        let requested := s.phase ≠ .starting ∧ f.nextLine + 1 < f.panelH
        let late := (s.cmp.get t).formed = none
        ∃ u line, exec (.lineDue t) s = .next u
        ∧ u = { s with
            now := now
            links := s.links.set t { s.links.get t with line := some line }
            frames := s.frames.set t { f with nextLine := f.nextLine + 1 }
            cmp := s.cmp.set t (u.cmp.get t)
            fsc := u.fsc
            evb := u.evb }
        ∧ (∀ formed, (s.cmp.get t).formed = some formed → line = formed)
        ∧ (late → f.nextLine = 0 ∨ (s.cmp.get t).previous = none → line = solid s.bgNow)
        ∧ (∀ before, late → f.nextLine ≠ 0 → (s.cmp.get t).previous = some before → line = before)
        ∧ u.evb = (if late then s.told (.underrun t s.csu.frame f.nextLine) else s.evb)
        ∧ u.cmp.get t = {
            formed := if requested ∧ runs = [] then some (composeLine s.storeByte s.bgNow f (f.nextLine + 1)) else none
            previous := some line
            underruns := if late then min 65535 ((s.cmp.get t).underruns + 1) else (s.cmp.get t).underruns }
        ∧ u.fsc = grant { s.fsc with
            fetches :=
              if requested ∧ runs ≠ [] then
                s.fsc.fetches.set t (some ⟨f.nextLine + 1, dueOf (f.nextLine + 1), runs⟩)
              else if late then s.fsc.fetches.set t none
              else s.fsc.fetches
            burst := if late then s.fsc.burst.map (Burst.cancelledFor t) else s.fsc.burst
            serving := if late ∧ s.fsc.serving = some t then none else s.fsc.serving })

/-! ### Blackout -/

/-- SET_BLACKOUT writes the mode and, where carried, the inversions with the levels they reverse, and sets the latch and the state
by the mode before and after; CLEAR_BLACKOUT clears a set latch once the input is not asserted. -/
def Obligations.BlackoutCommands : Prop :=
  (∀ (s : State) (unit mode : Nat) (marks : Option (Table Nat 4)), s.Takes unit 27 →
    2 < mode ∨ (∃ m c, marks = some m ∧ 1 < m.get c) →
    exec (.setBlackout unit mode marks) s = .next (s.replied unit (.setBlackout mode marks) .badValue .empty))
  ∧ (∀ (s : State) (unit mode : Nat) (m : BlackoutMode) (marks : Option (Table Nat 4)), s.Takes unit 27 →
      (mode, m) ∈ [(0, BlackoutMode.off), (1, .level), (2, .latch)] → (∀ n c, marks = some n → n.get c ≤ 1) →
      let latch := match m with
        | .latch => if s.cbi.mode = .latch then s.cbi.latch else s.cbi.input
        | _ => false
      let state := match m with | .off => false | .level => s.cbi.input | .latch => latch
      let inverted := fun (c : CueId) => match marks with | none => s.cbi.inversion.get c | some n => decide (n.get c = 1)
      exec (.setBlackout unit mode marks) s = .next (State.replied
        { s with cbi := { s.cbi with
          mode := m
          latch := latch
          state := state
          inversion := Table.ofFn inverted
          cue := Table.ofFn fun c => (s.cbi.cue.get c).map fun level => level != (s.cbi.inversion.get c != inverted c) } }
        unit (.setBlackout mode marks) .ok (.blackout m latch state)))
  ∧ ∀ (s : State) (unit : Nat), s.Takes unit 28 →
      (s.cbi.latch = false → exec (.clearBlackout unit) s = .next (s.replied unit .clearBlackout .nothingPending .empty))
      ∧ (s.cbi.latch = true → s.cbi.input = true →
          exec (.clearBlackout unit) s = .next (s.replied unit .clearBlackout .stillAsserted .empty))
      ∧ (s.cbi.latch = true → s.cbi.input = false → exec (.clearBlackout unit) s = .next (State.replied
          { s with cbi := { s.cbi with
            latch := false
            state := match s.cbi.mode with | .off => false | .level => s.cbi.input | .latch => false } }
          unit .clearBlackout .ok .empty))

/-- A settled change of the blackout input, no earlier than 2 ms after it was sampled, sets the level, in LATCH the latch when it is
asserted, and the state by the mode; a change that does not hold for 2 ms, or is none, moves only the pin. (The time the input has held
is an operand in microseconds, the model's choice: entry 29.) -/
def Obligations.BlackoutInputTaken : Prop :=
  (∀ (s : State) (level : Bool) (held : Nat), held < 2000 ∨ level = s.cbi.input →
    exec (.blackoutInputChange level held) s = .next { s with pins := { s.pins with blackout := level } })
  ∧ ∀ (s : State) (level : Bool) (held : Nat), 2000 ≤ held → level ≠ s.cbi.input →
    exec (.blackoutInputChange level held) s = .next { s with
      now := max s.now (s.cbi.blackoutSampledAt + 2000 * Config.ticksPerMicro)
      pins := { s.pins with blackout := level }
      cbi := { s.cbi with
        input := level
        latch := match s.cbi.mode with | .latch => s.cbi.latch || level | _ => false
        state := match s.cbi.mode with | .off => false | .level => level | .latch => s.cbi.latch || level } }

/-! ### Invariants -/

/-- Every step keeps: each reference_count is the number of slots that name the surface, and a named surface is not EMPTY. -/
def Obligations.ReferencesKept : Prop :=
  StepKeeps State.RefsInv ∧ ∀ (s : State) (i : SurfaceId), s.RefsInv → (s.sdir.get i).refs ≤ 256

/-- Every step keeps: no page belongs to two LOADING or READY records and all their pages lie inside the strapped store; the frame
store's contents stay in canonical form, and no byte outside the strapped store is written; the burst in progress, the runs of the waiting
fetches and the bytes left of the upload write lie inside the strapped store, with what keeps them there. So no step of a part in which
they do faults. -/
def Obligations.StoreAndPagesKept : Prop :=
  (StepKeeps State.PagesInv)
  ∧ (StepKeeps State.MemoryInv)
  ∧ (StepKeeps State.TransfersInv)
  ∧ ∀ (s : State) (f : Fault), s.TransfersInv → step s ≠ .fault f

/-- Every step keeps: at most one group NOMINATED or IN_DOUBT; on the master the due queue holds exactly the DUE groups and the
nomination is that of the NOMINATED group; on a slave neither. -/
def Obligations.GroupsKept : Prop := StepKeeps State.GroupsInv

/-- Every step keeps the order of the coverage lists and of the preparation. -/
def Obligations.CoverageListsKept : Prop := StepKeeps State.ListsInv

/-- Every step keeps: while the part releases RDY it is RUNNING and LOCKED, holds no desync hold, and holds a NOMINATED group that
is prepared and whose surfaces are all READY. -/
def Obligations.ReadinessKept : Prop := StepKeeps State.RdyInv

/-- Every step keeps the ranges of the port records, of levels and warm-ups, and of the underrun counts. -/
def Obligations.PortRangesKept : Prop := StepKeeps State.PortsInv

/-- The invariants hold right after power-on. -/
def Obligations.InvariantsAtReset : Prop :=
  State.reset.RefsInv ∧ State.reset.PagesInv ∧ State.reset.GroupsInv ∧ State.reset.ListsInv ∧ State.reset.RdyInv
    ∧ State.reset.MemoryInv ∧ State.reset.PortsInv ∧ State.reset.TransfersInv
end

