-- ==== Sys2Proof/Laws/State.lean ====
section
/-! SUPPORT. What each named operation makes of each field of the state: one lemma per field per operation, true by `rfl`, so that no
later proof unfolds a record update. The fields an operation computes by a rule of its own are left to its own lemma. -/

namespace Sys2Proof.Machine

variable (s : State)

/-! ### report -/

@[simp] theorem State.report_pending (d : Detail) : (s.report d).pending = s.pending := rfl
@[simp] theorem State.report_now (d : Detail) : (s.report d).now = s.now := rfl
@[simp] theorem State.report_phase (d : Detail) : (s.report d).phase = s.phase := rfl
@[simp] theorem State.report_startingEnd (d : Detail) : (s.report d).startingEnd = s.startingEnd := rfl
@[simp] theorem State.report_pins (d : Detail) : (s.report d).pins = s.pins := rfl
@[simp] theorem State.report_clc (d : Detail) : (s.report d).clc = s.clc := rfl
@[simp] theorem State.report_rate (d : Detail) : (s.report d).rate = s.rate := rfl
@[simp] theorem State.report_rateNow (d : Detail) : (s.report d).rateNow = s.rateNow := rfl
@[simp] theorem State.report_geo (d : Detail) : (s.report d).geo = s.geo := rfl
@[simp] theorem State.report_held (d : Detail) : (s.report d).held = s.held := rfl
@[simp] theorem State.report_tiles (d : Detail) : (s.report d).tiles = s.tiles := rfl
@[simp] theorem State.report_ports (d : Detail) : (s.report d).ports = s.ports := rfl
@[simp] theorem State.report_frames (d : Detail) : (s.report d).frames = s.frames := rfl
@[simp] theorem State.report_cmp (d : Detail) : (s.report d).cmp = s.cmp := rfl
@[simp] theorem State.report_links (d : Detail) : (s.report d).links = s.links := rfl
@[simp] theorem State.report_bg (d : Detail) : (s.report d).bg = s.bg := rfl
@[simp] theorem State.report_bgNow (d : Detail) : (s.report d).bgNow = s.bgNow := rfl
@[simp] theorem State.report_sdir (d : Detail) : (s.report d).sdir = s.sdir := rfl
@[simp] theorem State.report_store (d : Detail) : (s.report d).store = s.store := rfl
@[simp] theorem State.report_storeEpoch (d : Detail) : (s.report d).storeEpoch = s.storeEpoch := rfl
@[simp] theorem State.report_fsc (d : Detail) : (s.report d).fsc = s.fsc := rfl
@[simp] theorem State.report_ptab (d : Detail) : (s.report d).ptab = s.ptab := rfl
@[simp] theorem State.report_groups (d : Detail) : (s.report d).groups = s.groups := rfl
@[simp] theorem State.report_due (d : Detail) : (s.report d).due = s.due := rfl
@[simp] theorem State.report_csu (d : Detail) : (s.report d).csu = s.csu := rfl
@[simp] theorem State.report_cvb (d : Detail) : (s.report d).cvb = s.cvb := rfl
@[simp] theorem State.report_cbi (d : Detail) : (s.report d).cbi = s.cbi := rfl
@[simp] theorem State.report_evb (d : Detail) :
    (s.report d).evb = if s.phase = .starting then s.evb else s.evb.record d := rfl
@[simp] theorem State.report_freeCount (d : Detail) : (s.report d).freeCount = s.freeCount := rfl

/-! ### reportAll -/

@[simp] theorem State.reportAll_pending (ds : List Detail) : (s.reportAll ds).pending = s.pending := rfl
@[simp] theorem State.reportAll_now (ds : List Detail) : (s.reportAll ds).now = s.now := rfl
@[simp] theorem State.reportAll_phase (ds : List Detail) : (s.reportAll ds).phase = s.phase := rfl
@[simp] theorem State.reportAll_startingEnd (ds : List Detail) : (s.reportAll ds).startingEnd = s.startingEnd := rfl
@[simp] theorem State.reportAll_pins (ds : List Detail) : (s.reportAll ds).pins = s.pins := rfl
@[simp] theorem State.reportAll_clc (ds : List Detail) : (s.reportAll ds).clc = s.clc := rfl
@[simp] theorem State.reportAll_rate (ds : List Detail) : (s.reportAll ds).rate = s.rate := rfl
@[simp] theorem State.reportAll_rateNow (ds : List Detail) : (s.reportAll ds).rateNow = s.rateNow := rfl
@[simp] theorem State.reportAll_geo (ds : List Detail) : (s.reportAll ds).geo = s.geo := rfl
@[simp] theorem State.reportAll_held (ds : List Detail) : (s.reportAll ds).held = s.held := rfl
@[simp] theorem State.reportAll_tiles (ds : List Detail) : (s.reportAll ds).tiles = s.tiles := rfl
@[simp] theorem State.reportAll_ports (ds : List Detail) : (s.reportAll ds).ports = s.ports := rfl
@[simp] theorem State.reportAll_frames (ds : List Detail) : (s.reportAll ds).frames = s.frames := rfl
@[simp] theorem State.reportAll_cmp (ds : List Detail) : (s.reportAll ds).cmp = s.cmp := rfl
@[simp] theorem State.reportAll_links (ds : List Detail) : (s.reportAll ds).links = s.links := rfl
@[simp] theorem State.reportAll_bg (ds : List Detail) : (s.reportAll ds).bg = s.bg := rfl
@[simp] theorem State.reportAll_bgNow (ds : List Detail) : (s.reportAll ds).bgNow = s.bgNow := rfl
@[simp] theorem State.reportAll_sdir (ds : List Detail) : (s.reportAll ds).sdir = s.sdir := rfl
@[simp] theorem State.reportAll_store (ds : List Detail) : (s.reportAll ds).store = s.store := rfl
@[simp] theorem State.reportAll_storeEpoch (ds : List Detail) : (s.reportAll ds).storeEpoch = s.storeEpoch := rfl
@[simp] theorem State.reportAll_fsc (ds : List Detail) : (s.reportAll ds).fsc = s.fsc := rfl
@[simp] theorem State.reportAll_ptab (ds : List Detail) : (s.reportAll ds).ptab = s.ptab := rfl
@[simp] theorem State.reportAll_groups (ds : List Detail) : (s.reportAll ds).groups = s.groups := rfl
@[simp] theorem State.reportAll_due (ds : List Detail) : (s.reportAll ds).due = s.due := rfl
@[simp] theorem State.reportAll_csu (ds : List Detail) : (s.reportAll ds).csu = s.csu := rfl
@[simp] theorem State.reportAll_cvb (ds : List Detail) : (s.reportAll ds).cvb = s.cvb := rfl
@[simp] theorem State.reportAll_cbi (ds : List Detail) : (s.reportAll ds).cbi = s.cbi := rfl
@[simp] theorem State.reportAll_evb (ds : List Detail) :
    (s.reportAll ds).evb = if s.phase = .starting then s.evb else ds.foldl (fun e d => e.record d) s.evb := rfl
@[simp] theorem State.reportAll_freeCount (ds : List Detail) : (s.reportAll ds).freeCount = s.freeCount := rfl

/-! ### atLeast -/

@[simp] theorem State.atLeast_pending (t : Nat) : (s.atLeast t).pending = s.pending := rfl
@[simp] theorem State.atLeast_now (t : Nat) :
    (s.atLeast t).now = max s.now t := rfl
@[simp] theorem State.atLeast_phase (t : Nat) : (s.atLeast t).phase = s.phase := rfl
@[simp] theorem State.atLeast_startingEnd (t : Nat) : (s.atLeast t).startingEnd = s.startingEnd := rfl
@[simp] theorem State.atLeast_pins (t : Nat) : (s.atLeast t).pins = s.pins := rfl
@[simp] theorem State.atLeast_clc (t : Nat) : (s.atLeast t).clc = s.clc := rfl
@[simp] theorem State.atLeast_rate (t : Nat) : (s.atLeast t).rate = s.rate := rfl
@[simp] theorem State.atLeast_rateNow (t : Nat) : (s.atLeast t).rateNow = s.rateNow := rfl
@[simp] theorem State.atLeast_geo (t : Nat) : (s.atLeast t).geo = s.geo := rfl
@[simp] theorem State.atLeast_held (t : Nat) : (s.atLeast t).held = s.held := rfl
@[simp] theorem State.atLeast_tiles (t : Nat) : (s.atLeast t).tiles = s.tiles := rfl
@[simp] theorem State.atLeast_ports (t : Nat) : (s.atLeast t).ports = s.ports := rfl
@[simp] theorem State.atLeast_frames (t : Nat) : (s.atLeast t).frames = s.frames := rfl
@[simp] theorem State.atLeast_cmp (t : Nat) : (s.atLeast t).cmp = s.cmp := rfl
@[simp] theorem State.atLeast_links (t : Nat) : (s.atLeast t).links = s.links := rfl
@[simp] theorem State.atLeast_bg (t : Nat) : (s.atLeast t).bg = s.bg := rfl
@[simp] theorem State.atLeast_bgNow (t : Nat) : (s.atLeast t).bgNow = s.bgNow := rfl
@[simp] theorem State.atLeast_sdir (t : Nat) : (s.atLeast t).sdir = s.sdir := rfl
@[simp] theorem State.atLeast_store (t : Nat) : (s.atLeast t).store = s.store := rfl
@[simp] theorem State.atLeast_storeEpoch (t : Nat) : (s.atLeast t).storeEpoch = s.storeEpoch := rfl
@[simp] theorem State.atLeast_fsc (t : Nat) : (s.atLeast t).fsc = s.fsc := rfl
@[simp] theorem State.atLeast_ptab (t : Nat) : (s.atLeast t).ptab = s.ptab := rfl
@[simp] theorem State.atLeast_groups (t : Nat) : (s.atLeast t).groups = s.groups := rfl
@[simp] theorem State.atLeast_due (t : Nat) : (s.atLeast t).due = s.due := rfl
@[simp] theorem State.atLeast_csu (t : Nat) : (s.atLeast t).csu = s.csu := rfl
@[simp] theorem State.atLeast_cvb (t : Nat) : (s.atLeast t).cvb = s.cvb := rfl
@[simp] theorem State.atLeast_cbi (t : Nat) : (s.atLeast t).cbi = s.cbi := rfl
@[simp] theorem State.atLeast_evb (t : Nat) : (s.atLeast t).evb = s.evb := rfl
@[simp] theorem State.atLeast_freeCount (t : Nat) : (s.atLeast t).freeCount = s.freeCount := rfl

/-! ### setSurface -/

@[simp] theorem State.setSurface_pending (i : SurfaceId) (st : SurfaceState) : (s.setSurface i st).pending = s.pending := rfl
@[simp] theorem State.setSurface_now (i : SurfaceId) (st : SurfaceState) : (s.setSurface i st).now = s.now := rfl
@[simp] theorem State.setSurface_phase (i : SurfaceId) (st : SurfaceState) : (s.setSurface i st).phase = s.phase := rfl
@[simp] theorem State.setSurface_startingEnd (i : SurfaceId) (st : SurfaceState) : (s.setSurface i st).startingEnd = s.startingEnd := rfl
@[simp] theorem State.setSurface_pins (i : SurfaceId) (st : SurfaceState) : (s.setSurface i st).pins = s.pins := rfl
@[simp] theorem State.setSurface_clc (i : SurfaceId) (st : SurfaceState) : (s.setSurface i st).clc = s.clc := rfl
@[simp] theorem State.setSurface_rate (i : SurfaceId) (st : SurfaceState) : (s.setSurface i st).rate = s.rate := rfl
@[simp] theorem State.setSurface_rateNow (i : SurfaceId) (st : SurfaceState) : (s.setSurface i st).rateNow = s.rateNow := rfl
@[simp] theorem State.setSurface_geo (i : SurfaceId) (st : SurfaceState) : (s.setSurface i st).geo = s.geo := rfl
@[simp] theorem State.setSurface_held (i : SurfaceId) (st : SurfaceState) : (s.setSurface i st).held = s.held := rfl
@[simp] theorem State.setSurface_tiles (i : SurfaceId) (st : SurfaceState) : (s.setSurface i st).tiles = s.tiles := rfl
@[simp] theorem State.setSurface_ports (i : SurfaceId) (st : SurfaceState) : (s.setSurface i st).ports = s.ports := rfl
@[simp] theorem State.setSurface_frames (i : SurfaceId) (st : SurfaceState) : (s.setSurface i st).frames = s.frames := rfl
@[simp] theorem State.setSurface_cmp (i : SurfaceId) (st : SurfaceState) : (s.setSurface i st).cmp = s.cmp := rfl
@[simp] theorem State.setSurface_links (i : SurfaceId) (st : SurfaceState) : (s.setSurface i st).links = s.links := rfl
@[simp] theorem State.setSurface_bg (i : SurfaceId) (st : SurfaceState) : (s.setSurface i st).bg = s.bg := rfl
@[simp] theorem State.setSurface_bgNow (i : SurfaceId) (st : SurfaceState) : (s.setSurface i st).bgNow = s.bgNow := rfl
@[simp] theorem State.setSurface_sdir (i : SurfaceId) (st : SurfaceState) :
    (s.setSurface i st).sdir = s.sdir.modify i fun r => { r with state := st } := rfl
@[simp] theorem State.setSurface_store (i : SurfaceId) (st : SurfaceState) : (s.setSurface i st).store = s.store := rfl
@[simp] theorem State.setSurface_storeEpoch (i : SurfaceId) (st : SurfaceState) : (s.setSurface i st).storeEpoch = s.storeEpoch := rfl
@[simp] theorem State.setSurface_fsc (i : SurfaceId) (st : SurfaceState) : (s.setSurface i st).fsc = s.fsc := rfl
@[simp] theorem State.setSurface_ptab (i : SurfaceId) (st : SurfaceState) : (s.setSurface i st).ptab = s.ptab := rfl
@[simp] theorem State.setSurface_groups (i : SurfaceId) (st : SurfaceState) : (s.setSurface i st).groups = s.groups := rfl
@[simp] theorem State.setSurface_due (i : SurfaceId) (st : SurfaceState) : (s.setSurface i st).due = s.due := rfl
@[simp] theorem State.setSurface_csu (i : SurfaceId) (st : SurfaceState) : (s.setSurface i st).csu = s.csu := rfl
@[simp] theorem State.setSurface_cvb (i : SurfaceId) (st : SurfaceState) : (s.setSurface i st).cvb = s.cvb := rfl
@[simp] theorem State.setSurface_cbi (i : SurfaceId) (st : SurfaceState) : (s.setSurface i st).cbi = s.cbi := rfl
@[simp] theorem State.setSurface_evb (i : SurfaceId) (st : SurfaceState) : (s.setSurface i st).evb = s.evb := rfl
@[simp] theorem State.setSurface_freeCount (i : SurfaceId) (st : SurfaceState) : (s.setSurface i st).freeCount = s.freeCount := rfl

/-! ### nameSurface -/

@[simp] theorem State.nameSurface_pending (i : SurfaceId) : (s.nameSurface i).pending = s.pending := rfl
@[simp] theorem State.nameSurface_now (i : SurfaceId) : (s.nameSurface i).now = s.now := rfl
@[simp] theorem State.nameSurface_phase (i : SurfaceId) : (s.nameSurface i).phase = s.phase := rfl
@[simp] theorem State.nameSurface_startingEnd (i : SurfaceId) : (s.nameSurface i).startingEnd = s.startingEnd := rfl
@[simp] theorem State.nameSurface_pins (i : SurfaceId) : (s.nameSurface i).pins = s.pins := rfl
@[simp] theorem State.nameSurface_clc (i : SurfaceId) : (s.nameSurface i).clc = s.clc := rfl
@[simp] theorem State.nameSurface_rate (i : SurfaceId) : (s.nameSurface i).rate = s.rate := rfl
@[simp] theorem State.nameSurface_rateNow (i : SurfaceId) : (s.nameSurface i).rateNow = s.rateNow := rfl
@[simp] theorem State.nameSurface_geo (i : SurfaceId) : (s.nameSurface i).geo = s.geo := rfl
@[simp] theorem State.nameSurface_held (i : SurfaceId) : (s.nameSurface i).held = s.held := rfl
@[simp] theorem State.nameSurface_tiles (i : SurfaceId) : (s.nameSurface i).tiles = s.tiles := rfl
@[simp] theorem State.nameSurface_ports (i : SurfaceId) : (s.nameSurface i).ports = s.ports := rfl
@[simp] theorem State.nameSurface_frames (i : SurfaceId) : (s.nameSurface i).frames = s.frames := rfl
@[simp] theorem State.nameSurface_cmp (i : SurfaceId) : (s.nameSurface i).cmp = s.cmp := rfl
@[simp] theorem State.nameSurface_links (i : SurfaceId) : (s.nameSurface i).links = s.links := rfl
@[simp] theorem State.nameSurface_bg (i : SurfaceId) : (s.nameSurface i).bg = s.bg := rfl
@[simp] theorem State.nameSurface_bgNow (i : SurfaceId) : (s.nameSurface i).bgNow = s.bgNow := rfl
@[simp] theorem State.nameSurface_sdir (i : SurfaceId) :
    (s.nameSurface i).sdir = s.sdir.modify i fun r => { r with refs := r.refs + 1 } := rfl
@[simp] theorem State.nameSurface_store (i : SurfaceId) : (s.nameSurface i).store = s.store := rfl
@[simp] theorem State.nameSurface_storeEpoch (i : SurfaceId) : (s.nameSurface i).storeEpoch = s.storeEpoch := rfl
@[simp] theorem State.nameSurface_fsc (i : SurfaceId) : (s.nameSurface i).fsc = s.fsc := rfl
@[simp] theorem State.nameSurface_ptab (i : SurfaceId) : (s.nameSurface i).ptab = s.ptab := rfl
@[simp] theorem State.nameSurface_groups (i : SurfaceId) : (s.nameSurface i).groups = s.groups := rfl
@[simp] theorem State.nameSurface_due (i : SurfaceId) : (s.nameSurface i).due = s.due := rfl
@[simp] theorem State.nameSurface_csu (i : SurfaceId) : (s.nameSurface i).csu = s.csu := rfl
@[simp] theorem State.nameSurface_cvb (i : SurfaceId) : (s.nameSurface i).cvb = s.cvb := rfl
@[simp] theorem State.nameSurface_cbi (i : SurfaceId) : (s.nameSurface i).cbi = s.cbi := rfl
@[simp] theorem State.nameSurface_evb (i : SurfaceId) : (s.nameSurface i).evb = s.evb := rfl
@[simp] theorem State.nameSurface_freeCount (i : SurfaceId) : (s.nameSurface i).freeCount = s.freeCount := rfl

/-! ### unnameSurface -/

@[simp] theorem State.unnameSurface_pending (i : SurfaceId) : (s.unnameSurface i).pending = s.pending := rfl
@[simp] theorem State.unnameSurface_now (i : SurfaceId) : (s.unnameSurface i).now = s.now := rfl
@[simp] theorem State.unnameSurface_phase (i : SurfaceId) : (s.unnameSurface i).phase = s.phase := rfl
@[simp] theorem State.unnameSurface_startingEnd (i : SurfaceId) : (s.unnameSurface i).startingEnd = s.startingEnd := rfl
@[simp] theorem State.unnameSurface_pins (i : SurfaceId) : (s.unnameSurface i).pins = s.pins := rfl
@[simp] theorem State.unnameSurface_clc (i : SurfaceId) : (s.unnameSurface i).clc = s.clc := rfl
@[simp] theorem State.unnameSurface_rate (i : SurfaceId) : (s.unnameSurface i).rate = s.rate := rfl
@[simp] theorem State.unnameSurface_rateNow (i : SurfaceId) : (s.unnameSurface i).rateNow = s.rateNow := rfl
@[simp] theorem State.unnameSurface_geo (i : SurfaceId) : (s.unnameSurface i).geo = s.geo := rfl
@[simp] theorem State.unnameSurface_held (i : SurfaceId) : (s.unnameSurface i).held = s.held := rfl
@[simp] theorem State.unnameSurface_tiles (i : SurfaceId) : (s.unnameSurface i).tiles = s.tiles := rfl
@[simp] theorem State.unnameSurface_ports (i : SurfaceId) : (s.unnameSurface i).ports = s.ports := rfl
@[simp] theorem State.unnameSurface_frames (i : SurfaceId) : (s.unnameSurface i).frames = s.frames := rfl
@[simp] theorem State.unnameSurface_cmp (i : SurfaceId) : (s.unnameSurface i).cmp = s.cmp := rfl
@[simp] theorem State.unnameSurface_links (i : SurfaceId) : (s.unnameSurface i).links = s.links := rfl
@[simp] theorem State.unnameSurface_bg (i : SurfaceId) : (s.unnameSurface i).bg = s.bg := rfl
@[simp] theorem State.unnameSurface_bgNow (i : SurfaceId) : (s.unnameSurface i).bgNow = s.bgNow := rfl
@[simp] theorem State.unnameSurface_sdir (i : SurfaceId) :
    (s.unnameSurface i).sdir = s.sdir.modify i fun r => { r with refs := r.refs - 1 } := rfl
@[simp] theorem State.unnameSurface_store (i : SurfaceId) : (s.unnameSurface i).store = s.store := rfl
@[simp] theorem State.unnameSurface_storeEpoch (i : SurfaceId) : (s.unnameSurface i).storeEpoch = s.storeEpoch := rfl
@[simp] theorem State.unnameSurface_fsc (i : SurfaceId) : (s.unnameSurface i).fsc = s.fsc := rfl
@[simp] theorem State.unnameSurface_ptab (i : SurfaceId) : (s.unnameSurface i).ptab = s.ptab := rfl
@[simp] theorem State.unnameSurface_groups (i : SurfaceId) : (s.unnameSurface i).groups = s.groups := rfl
@[simp] theorem State.unnameSurface_due (i : SurfaceId) : (s.unnameSurface i).due = s.due := rfl
@[simp] theorem State.unnameSurface_csu (i : SurfaceId) : (s.unnameSurface i).csu = s.csu := rfl
@[simp] theorem State.unnameSurface_cvb (i : SurfaceId) : (s.unnameSurface i).cvb = s.cvb := rfl
@[simp] theorem State.unnameSurface_cbi (i : SurfaceId) : (s.unnameSurface i).cbi = s.cbi := rfl
@[simp] theorem State.unnameSurface_evb (i : SurfaceId) : (s.unnameSurface i).evb = s.evb := rfl
@[simp] theorem State.unnameSurface_freeCount (i : SurfaceId) : (s.unnameSurface i).freeCount = s.freeCount := rfl

/-! ### setPlacement -/

@[simp] theorem State.setPlacement_pending (i : PlacementId) (r : Placement) : (s.setPlacement i r).pending = s.pending := rfl
@[simp] theorem State.setPlacement_now (i : PlacementId) (r : Placement) : (s.setPlacement i r).now = s.now := rfl
@[simp] theorem State.setPlacement_phase (i : PlacementId) (r : Placement) : (s.setPlacement i r).phase = s.phase := rfl
@[simp] theorem State.setPlacement_startingEnd (i : PlacementId) (r : Placement) : (s.setPlacement i r).startingEnd = s.startingEnd := rfl
@[simp] theorem State.setPlacement_pins (i : PlacementId) (r : Placement) : (s.setPlacement i r).pins = s.pins := rfl
@[simp] theorem State.setPlacement_clc (i : PlacementId) (r : Placement) : (s.setPlacement i r).clc = s.clc := rfl
@[simp] theorem State.setPlacement_rate (i : PlacementId) (r : Placement) : (s.setPlacement i r).rate = s.rate := rfl
@[simp] theorem State.setPlacement_rateNow (i : PlacementId) (r : Placement) : (s.setPlacement i r).rateNow = s.rateNow := rfl
@[simp] theorem State.setPlacement_geo (i : PlacementId) (r : Placement) : (s.setPlacement i r).geo = s.geo := rfl
@[simp] theorem State.setPlacement_held (i : PlacementId) (r : Placement) : (s.setPlacement i r).held = s.held := rfl
@[simp] theorem State.setPlacement_tiles (i : PlacementId) (r : Placement) : (s.setPlacement i r).tiles = s.tiles := rfl
@[simp] theorem State.setPlacement_ports (i : PlacementId) (r : Placement) : (s.setPlacement i r).ports = s.ports := rfl
@[simp] theorem State.setPlacement_frames (i : PlacementId) (r : Placement) : (s.setPlacement i r).frames = s.frames := rfl
@[simp] theorem State.setPlacement_cmp (i : PlacementId) (r : Placement) : (s.setPlacement i r).cmp = s.cmp := rfl
@[simp] theorem State.setPlacement_links (i : PlacementId) (r : Placement) : (s.setPlacement i r).links = s.links := rfl
@[simp] theorem State.setPlacement_bg (i : PlacementId) (r : Placement) : (s.setPlacement i r).bg = s.bg := rfl
@[simp] theorem State.setPlacement_bgNow (i : PlacementId) (r : Placement) : (s.setPlacement i r).bgNow = s.bgNow := rfl
@[simp] theorem State.setPlacement_sdir (i : PlacementId) (r : Placement) : (s.setPlacement i r).sdir = s.sdir := rfl
@[simp] theorem State.setPlacement_store (i : PlacementId) (r : Placement) : (s.setPlacement i r).store = s.store := rfl
@[simp] theorem State.setPlacement_storeEpoch (i : PlacementId) (r : Placement) : (s.setPlacement i r).storeEpoch = s.storeEpoch := rfl
@[simp] theorem State.setPlacement_fsc (i : PlacementId) (r : Placement) : (s.setPlacement i r).fsc = s.fsc := rfl
@[simp] theorem State.setPlacement_ptab (i : PlacementId) (r : Placement) :
    (s.setPlacement i r).ptab = s.ptab.set i r := rfl
@[simp] theorem State.setPlacement_groups (i : PlacementId) (r : Placement) : (s.setPlacement i r).groups = s.groups := rfl
@[simp] theorem State.setPlacement_due (i : PlacementId) (r : Placement) : (s.setPlacement i r).due = s.due := rfl
@[simp] theorem State.setPlacement_csu (i : PlacementId) (r : Placement) : (s.setPlacement i r).csu = s.csu := rfl
@[simp] theorem State.setPlacement_cvb (i : PlacementId) (r : Placement) : (s.setPlacement i r).cvb = s.cvb := rfl
@[simp] theorem State.setPlacement_cbi (i : PlacementId) (r : Placement) : (s.setPlacement i r).cbi = s.cbi := rfl
@[simp] theorem State.setPlacement_evb (i : PlacementId) (r : Placement) : (s.setPlacement i r).evb = s.evb := rfl
@[simp] theorem State.setPlacement_freeCount (i : PlacementId) (r : Placement) : (s.setPlacement i r).freeCount = s.freeCount := rfl

/-! ### changeRecords -/

@[simp] theorem State.changeRecords_pending (f : PlacementId → Placement → Placement × List SurfaceId) : (s.changeRecords f).pending = s.pending := rfl
@[simp] theorem State.changeRecords_now (f : PlacementId → Placement → Placement × List SurfaceId) : (s.changeRecords f).now = s.now := rfl
@[simp] theorem State.changeRecords_phase (f : PlacementId → Placement → Placement × List SurfaceId) : (s.changeRecords f).phase = s.phase := rfl
@[simp] theorem State.changeRecords_startingEnd (f : PlacementId → Placement → Placement × List SurfaceId) : (s.changeRecords f).startingEnd = s.startingEnd := rfl
@[simp] theorem State.changeRecords_pins (f : PlacementId → Placement → Placement × List SurfaceId) : (s.changeRecords f).pins = s.pins := rfl
@[simp] theorem State.changeRecords_clc (f : PlacementId → Placement → Placement × List SurfaceId) : (s.changeRecords f).clc = s.clc := rfl
@[simp] theorem State.changeRecords_rate (f : PlacementId → Placement → Placement × List SurfaceId) : (s.changeRecords f).rate = s.rate := rfl
@[simp] theorem State.changeRecords_rateNow (f : PlacementId → Placement → Placement × List SurfaceId) : (s.changeRecords f).rateNow = s.rateNow := rfl
@[simp] theorem State.changeRecords_geo (f : PlacementId → Placement → Placement × List SurfaceId) : (s.changeRecords f).geo = s.geo := rfl
@[simp] theorem State.changeRecords_held (f : PlacementId → Placement → Placement × List SurfaceId) : (s.changeRecords f).held = s.held := rfl
@[simp] theorem State.changeRecords_tiles (f : PlacementId → Placement → Placement × List SurfaceId) : (s.changeRecords f).tiles = s.tiles := rfl
@[simp] theorem State.changeRecords_ports (f : PlacementId → Placement → Placement × List SurfaceId) : (s.changeRecords f).ports = s.ports := rfl
@[simp] theorem State.changeRecords_frames (f : PlacementId → Placement → Placement × List SurfaceId) : (s.changeRecords f).frames = s.frames := rfl
@[simp] theorem State.changeRecords_cmp (f : PlacementId → Placement → Placement × List SurfaceId) : (s.changeRecords f).cmp = s.cmp := rfl
@[simp] theorem State.changeRecords_links (f : PlacementId → Placement → Placement × List SurfaceId) : (s.changeRecords f).links = s.links := rfl
@[simp] theorem State.changeRecords_bg (f : PlacementId → Placement → Placement × List SurfaceId) : (s.changeRecords f).bg = s.bg := rfl
@[simp] theorem State.changeRecords_bgNow (f : PlacementId → Placement → Placement × List SurfaceId) : (s.changeRecords f).bgNow = s.bgNow := rfl
@[simp] theorem State.changeRecords_sdir (f : PlacementId → Placement → Placement × List SurfaceId) :
    (s.changeRecords f).sdir = s.sdir.mapIdx fun i r => { r with refs := r.refs - (s.noticesOf f).count i } := rfl
@[simp] theorem State.changeRecords_store (f : PlacementId → Placement → Placement × List SurfaceId) : (s.changeRecords f).store = s.store := rfl
@[simp] theorem State.changeRecords_storeEpoch (f : PlacementId → Placement → Placement × List SurfaceId) : (s.changeRecords f).storeEpoch = s.storeEpoch := rfl
@[simp] theorem State.changeRecords_fsc (f : PlacementId → Placement → Placement × List SurfaceId) : (s.changeRecords f).fsc = s.fsc := rfl
@[simp] theorem State.changeRecords_ptab (f : PlacementId → Placement → Placement × List SurfaceId) :
    (s.changeRecords f).ptab = s.ptab.mapIdx fun i r => (f i r).1 := rfl
@[simp] theorem State.changeRecords_groups (f : PlacementId → Placement → Placement × List SurfaceId) : (s.changeRecords f).groups = s.groups := rfl
@[simp] theorem State.changeRecords_due (f : PlacementId → Placement → Placement × List SurfaceId) : (s.changeRecords f).due = s.due := rfl
@[simp] theorem State.changeRecords_csu (f : PlacementId → Placement → Placement × List SurfaceId) : (s.changeRecords f).csu = s.csu := rfl
@[simp] theorem State.changeRecords_cvb (f : PlacementId → Placement → Placement × List SurfaceId) : (s.changeRecords f).cvb = s.cvb := rfl
@[simp] theorem State.changeRecords_cbi (f : PlacementId → Placement → Placement × List SurfaceId) : (s.changeRecords f).cbi = s.cbi := rfl
@[simp] theorem State.changeRecords_evb (f : PlacementId → Placement → Placement × List SurfaceId) : (s.changeRecords f).evb = s.evb := rfl
@[simp] theorem State.changeRecords_freeCount (f : PlacementId → Placement → Placement × List SurfaceId) : (s.changeRecords f).freeCount = s.freeCount := rfl

/-! ### setGroupState -/

@[simp] theorem State.setGroupState_pending (g : GroupId) (st : GroupState) : (s.setGroupState g st).pending = s.pending := rfl
@[simp] theorem State.setGroupState_now (g : GroupId) (st : GroupState) : (s.setGroupState g st).now = s.now := rfl
@[simp] theorem State.setGroupState_phase (g : GroupId) (st : GroupState) : (s.setGroupState g st).phase = s.phase := rfl
@[simp] theorem State.setGroupState_startingEnd (g : GroupId) (st : GroupState) : (s.setGroupState g st).startingEnd = s.startingEnd := rfl
@[simp] theorem State.setGroupState_pins (g : GroupId) (st : GroupState) : (s.setGroupState g st).pins = s.pins := rfl
@[simp] theorem State.setGroupState_clc (g : GroupId) (st : GroupState) : (s.setGroupState g st).clc = s.clc := rfl
@[simp] theorem State.setGroupState_rate (g : GroupId) (st : GroupState) : (s.setGroupState g st).rate = s.rate := rfl
@[simp] theorem State.setGroupState_rateNow (g : GroupId) (st : GroupState) : (s.setGroupState g st).rateNow = s.rateNow := rfl
@[simp] theorem State.setGroupState_geo (g : GroupId) (st : GroupState) : (s.setGroupState g st).geo = s.geo := rfl
@[simp] theorem State.setGroupState_held (g : GroupId) (st : GroupState) : (s.setGroupState g st).held = s.held := rfl
@[simp] theorem State.setGroupState_tiles (g : GroupId) (st : GroupState) : (s.setGroupState g st).tiles = s.tiles := rfl
@[simp] theorem State.setGroupState_ports (g : GroupId) (st : GroupState) : (s.setGroupState g st).ports = s.ports := rfl
@[simp] theorem State.setGroupState_frames (g : GroupId) (st : GroupState) : (s.setGroupState g st).frames = s.frames := rfl
@[simp] theorem State.setGroupState_cmp (g : GroupId) (st : GroupState) : (s.setGroupState g st).cmp = s.cmp := rfl
@[simp] theorem State.setGroupState_links (g : GroupId) (st : GroupState) : (s.setGroupState g st).links = s.links := rfl
@[simp] theorem State.setGroupState_bg (g : GroupId) (st : GroupState) : (s.setGroupState g st).bg = s.bg := rfl
@[simp] theorem State.setGroupState_bgNow (g : GroupId) (st : GroupState) : (s.setGroupState g st).bgNow = s.bgNow := rfl
@[simp] theorem State.setGroupState_sdir (g : GroupId) (st : GroupState) : (s.setGroupState g st).sdir = s.sdir := rfl
@[simp] theorem State.setGroupState_store (g : GroupId) (st : GroupState) : (s.setGroupState g st).store = s.store := rfl
@[simp] theorem State.setGroupState_storeEpoch (g : GroupId) (st : GroupState) : (s.setGroupState g st).storeEpoch = s.storeEpoch := rfl
@[simp] theorem State.setGroupState_fsc (g : GroupId) (st : GroupState) : (s.setGroupState g st).fsc = s.fsc := rfl
@[simp] theorem State.setGroupState_ptab (g : GroupId) (st : GroupState) : (s.setGroupState g st).ptab = s.ptab := rfl
@[simp] theorem State.setGroupState_groups (g : GroupId) (st : GroupState) :
    (s.setGroupState g st).groups = s.groups.modify g fun r => { r with state := st } := rfl
@[simp] theorem State.setGroupState_due (g : GroupId) (st : GroupState) : (s.setGroupState g st).due = s.due := rfl
@[simp] theorem State.setGroupState_csu (g : GroupId) (st : GroupState) : (s.setGroupState g st).csu = s.csu := rfl
@[simp] theorem State.setGroupState_cvb (g : GroupId) (st : GroupState) : (s.setGroupState g st).cvb = s.cvb := rfl
@[simp] theorem State.setGroupState_cbi (g : GroupId) (st : GroupState) : (s.setGroupState g st).cbi = s.cbi := rfl
@[simp] theorem State.setGroupState_evb (g : GroupId) (st : GroupState) : (s.setGroupState g st).evb = s.evb := rfl
@[simp] theorem State.setGroupState_freeCount (g : GroupId) (st : GroupState) : (s.setGroupState g st).freeCount = s.freeCount := rfl

/-! ### makeDue -/

@[simp] theorem State.makeDue_pending (g : GroupId) : (s.makeDue g).pending = s.pending := by simp [State.makeDue]
@[simp] theorem State.makeDue_now (g : GroupId) : (s.makeDue g).now = s.now := by simp [State.makeDue]
@[simp] theorem State.makeDue_phase (g : GroupId) : (s.makeDue g).phase = s.phase := by simp [State.makeDue]
@[simp] theorem State.makeDue_startingEnd (g : GroupId) : (s.makeDue g).startingEnd = s.startingEnd := by simp [State.makeDue]
@[simp] theorem State.makeDue_pins (g : GroupId) : (s.makeDue g).pins = s.pins := by simp [State.makeDue]
@[simp] theorem State.makeDue_clc (g : GroupId) : (s.makeDue g).clc = s.clc := by simp [State.makeDue]
@[simp] theorem State.makeDue_rate (g : GroupId) : (s.makeDue g).rate = s.rate := by simp [State.makeDue]
@[simp] theorem State.makeDue_rateNow (g : GroupId) : (s.makeDue g).rateNow = s.rateNow := by simp [State.makeDue]
@[simp] theorem State.makeDue_geo (g : GroupId) : (s.makeDue g).geo = s.geo := by simp [State.makeDue]
@[simp] theorem State.makeDue_held (g : GroupId) : (s.makeDue g).held = s.held := by simp [State.makeDue]
@[simp] theorem State.makeDue_tiles (g : GroupId) : (s.makeDue g).tiles = s.tiles := by simp [State.makeDue]
@[simp] theorem State.makeDue_ports (g : GroupId) : (s.makeDue g).ports = s.ports := by simp [State.makeDue]
@[simp] theorem State.makeDue_frames (g : GroupId) : (s.makeDue g).frames = s.frames := by simp [State.makeDue]
@[simp] theorem State.makeDue_cmp (g : GroupId) : (s.makeDue g).cmp = s.cmp := by simp [State.makeDue]
@[simp] theorem State.makeDue_links (g : GroupId) : (s.makeDue g).links = s.links := by simp [State.makeDue]
@[simp] theorem State.makeDue_bg (g : GroupId) : (s.makeDue g).bg = s.bg := by simp [State.makeDue]
@[simp] theorem State.makeDue_bgNow (g : GroupId) : (s.makeDue g).bgNow = s.bgNow := by simp [State.makeDue]
@[simp] theorem State.makeDue_sdir (g : GroupId) : (s.makeDue g).sdir = s.sdir := by simp [State.makeDue]
@[simp] theorem State.makeDue_store (g : GroupId) : (s.makeDue g).store = s.store := by simp [State.makeDue]
@[simp] theorem State.makeDue_storeEpoch (g : GroupId) : (s.makeDue g).storeEpoch = s.storeEpoch := by simp [State.makeDue]
@[simp] theorem State.makeDue_fsc (g : GroupId) : (s.makeDue g).fsc = s.fsc := by simp [State.makeDue]
@[simp] theorem State.makeDue_ptab (g : GroupId) : (s.makeDue g).ptab = s.ptab := by simp [State.makeDue]
@[simp] theorem State.makeDue_groups (g : GroupId) :
    (s.makeDue g).groups = s.groups.modify g fun r => { r with state := .due } := by simp [State.makeDue]
@[simp] theorem State.makeDue_due (g : GroupId) :
    (s.makeDue g).due = s.due ++ [g] := by simp [State.makeDue]
@[simp] theorem State.makeDue_csu (g : GroupId) : (s.makeDue g).csu = s.csu := by simp [State.makeDue]
@[simp] theorem State.makeDue_cvb (g : GroupId) : (s.makeDue g).cvb = s.cvb := by simp [State.makeDue]
@[simp] theorem State.makeDue_cbi (g : GroupId) : (s.makeDue g).cbi = s.cbi := by simp [State.makeDue]
@[simp] theorem State.makeDue_evb (g : GroupId) : (s.makeDue g).evb = s.evb := by simp [State.makeDue]
@[simp] theorem State.makeDue_freeCount (g : GroupId) : (s.makeDue g).freeCount = s.freeCount := by simp [State.makeDue]

/-! ### retestRdy -/

@[simp] theorem State.retestRdy_pending : (s.retestRdy).pending = s.pending := rfl
@[simp] theorem State.retestRdy_now : (s.retestRdy).now = s.now := rfl
@[simp] theorem State.retestRdy_phase : (s.retestRdy).phase = s.phase := rfl
@[simp] theorem State.retestRdy_startingEnd : (s.retestRdy).startingEnd = s.startingEnd := rfl
@[simp] theorem State.retestRdy_pins : (s.retestRdy).pins = s.pins := rfl
@[simp] theorem State.retestRdy_clc : (s.retestRdy).clc = s.clc := rfl
@[simp] theorem State.retestRdy_rate : (s.retestRdy).rate = s.rate := rfl
@[simp] theorem State.retestRdy_rateNow : (s.retestRdy).rateNow = s.rateNow := rfl
@[simp] theorem State.retestRdy_geo : (s.retestRdy).geo = s.geo := rfl
@[simp] theorem State.retestRdy_held : (s.retestRdy).held = s.held := rfl
@[simp] theorem State.retestRdy_tiles : (s.retestRdy).tiles = s.tiles := rfl
@[simp] theorem State.retestRdy_ports : (s.retestRdy).ports = s.ports := rfl
@[simp] theorem State.retestRdy_frames : (s.retestRdy).frames = s.frames := rfl
@[simp] theorem State.retestRdy_cmp : (s.retestRdy).cmp = s.cmp := rfl
@[simp] theorem State.retestRdy_links : (s.retestRdy).links = s.links := rfl
@[simp] theorem State.retestRdy_bg : (s.retestRdy).bg = s.bg := rfl
@[simp] theorem State.retestRdy_bgNow : (s.retestRdy).bgNow = s.bgNow := rfl
@[simp] theorem State.retestRdy_sdir : (s.retestRdy).sdir = s.sdir := rfl
@[simp] theorem State.retestRdy_store : (s.retestRdy).store = s.store := rfl
@[simp] theorem State.retestRdy_storeEpoch : (s.retestRdy).storeEpoch = s.storeEpoch := rfl
@[simp] theorem State.retestRdy_fsc : (s.retestRdy).fsc = s.fsc := rfl
@[simp] theorem State.retestRdy_ptab : (s.retestRdy).ptab = s.ptab := rfl
@[simp] theorem State.retestRdy_groups : (s.retestRdy).groups = s.groups := rfl
@[simp] theorem State.retestRdy_due : (s.retestRdy).due = s.due := rfl
@[simp] theorem State.retestRdy_csu :
    (s.retestRdy).csu = { s.csu with rdyReleased := s.rdyConditions, readinessGiven := s.csu.readinessGiven || s.rdyConditions } := rfl
@[simp] theorem State.retestRdy_cvb : (s.retestRdy).cvb = s.cvb := rfl
@[simp] theorem State.retestRdy_cbi : (s.retestRdy).cbi = s.cbi := rfl
@[simp] theorem State.retestRdy_evb : (s.retestRdy).evb = s.evb := rfl
@[simp] theorem State.retestRdy_freeCount : (s.retestRdy).freeCount = s.freeCount := rfl

/-! ### settleHold -/

@[simp] theorem State.settleHold_pending : (s.settleHold).pending = s.pending := rfl
@[simp] theorem State.settleHold_now : (s.settleHold).now = s.now := rfl
@[simp] theorem State.settleHold_phase : (s.settleHold).phase = s.phase := rfl
@[simp] theorem State.settleHold_startingEnd : (s.settleHold).startingEnd = s.startingEnd := rfl
@[simp] theorem State.settleHold_pins : (s.settleHold).pins = s.pins := rfl
@[simp] theorem State.settleHold_clc : (s.settleHold).clc = s.clc := rfl
@[simp] theorem State.settleHold_rate : (s.settleHold).rate = s.rate := rfl
@[simp] theorem State.settleHold_rateNow : (s.settleHold).rateNow = s.rateNow := rfl
@[simp] theorem State.settleHold_geo : (s.settleHold).geo = s.geo := rfl
@[simp] theorem State.settleHold_held : (s.settleHold).held = s.held := rfl
@[simp] theorem State.settleHold_tiles : (s.settleHold).tiles = s.tiles := rfl
@[simp] theorem State.settleHold_ports : (s.settleHold).ports = s.ports := rfl
@[simp] theorem State.settleHold_frames : (s.settleHold).frames = s.frames := rfl
@[simp] theorem State.settleHold_cmp : (s.settleHold).cmp = s.cmp := rfl
@[simp] theorem State.settleHold_links : (s.settleHold).links = s.links := rfl
@[simp] theorem State.settleHold_bg : (s.settleHold).bg = s.bg := rfl
@[simp] theorem State.settleHold_bgNow : (s.settleHold).bgNow = s.bgNow := rfl
@[simp] theorem State.settleHold_sdir : (s.settleHold).sdir = s.sdir := rfl
@[simp] theorem State.settleHold_store : (s.settleHold).store = s.store := rfl
@[simp] theorem State.settleHold_storeEpoch : (s.settleHold).storeEpoch = s.storeEpoch := rfl
@[simp] theorem State.settleHold_fsc : (s.settleHold).fsc = s.fsc := rfl
@[simp] theorem State.settleHold_ptab : (s.settleHold).ptab = s.ptab := rfl
@[simp] theorem State.settleHold_groups : (s.settleHold).groups = s.groups := rfl
@[simp] theorem State.settleHold_due : (s.settleHold).due = s.due := rfl
@[simp] theorem State.settleHold_csu :
    (s.settleHold).csu = if s.heldGroup = none then { s.csu with readinessGiven := false, desyncHold := none } else s.csu := rfl
@[simp] theorem State.settleHold_cvb : (s.settleHold).cvb = s.cvb := rfl
@[simp] theorem State.settleHold_cbi : (s.settleHold).cbi = s.cbi := rfl
@[simp] theorem State.settleHold_evb : (s.settleHold).evb = s.evb := rfl
@[simp] theorem State.settleHold_freeCount : (s.settleHold).freeCount = s.freeCount := rfl

/-! ### activate -/

@[simp] theorem State.activate_pending (c : Cvb) : (s.activate c).pending = s.pending := by simp [State.activate]
@[simp] theorem State.activate_now (c : Cvb) : (s.activate c).now = s.now := by simp [State.activate]
@[simp] theorem State.activate_phase (c : Cvb) : (s.activate c).phase = s.phase := by simp [State.activate]
@[simp] theorem State.activate_startingEnd (c : Cvb) : (s.activate c).startingEnd = s.startingEnd := by simp [State.activate]
@[simp] theorem State.activate_pins (c : Cvb) : (s.activate c).pins = s.pins := by simp [State.activate]
@[simp] theorem State.activate_clc (c : Cvb) : (s.activate c).clc = s.clc := by simp [State.activate]
@[simp] theorem State.activate_rate (c : Cvb) : (s.activate c).rate = s.rate := by simp [State.activate]
@[simp] theorem State.activate_rateNow (c : Cvb) : (s.activate c).rateNow = s.rateNow := by simp [State.activate]
@[simp] theorem State.activate_geo (c : Cvb) : (s.activate c).geo = s.geo := by simp [State.activate]
@[simp] theorem State.activate_held (c : Cvb) : (s.activate c).held = s.held := by simp [State.activate]
@[simp] theorem State.activate_tiles (c : Cvb) : (s.activate c).tiles = s.tiles := by simp [State.activate]
@[simp] theorem State.activate_ports (c : Cvb) : (s.activate c).ports = s.ports := by simp [State.activate]
@[simp] theorem State.activate_frames (c : Cvb) : (s.activate c).frames = s.frames := by simp [State.activate]
@[simp] theorem State.activate_cmp (c : Cvb) : (s.activate c).cmp = s.cmp := by simp [State.activate]
@[simp] theorem State.activate_links (c : Cvb) : (s.activate c).links = s.links := by simp [State.activate]
@[simp] theorem State.activate_bg (c : Cvb) : (s.activate c).bg = s.bg := by simp [State.activate]
@[simp] theorem State.activate_bgNow (c : Cvb) : (s.activate c).bgNow = s.bgNow := by simp [State.activate]
@[simp] theorem State.activate_sdir (c : Cvb) : (s.activate c).sdir = s.sdir := by simp [State.activate]
@[simp] theorem State.activate_store (c : Cvb) : (s.activate c).store = s.store := by simp [State.activate]
@[simp] theorem State.activate_storeEpoch (c : Cvb) : (s.activate c).storeEpoch = s.storeEpoch := by simp [State.activate]
@[simp] theorem State.activate_fsc (c : Cvb) : (s.activate c).fsc = s.fsc := by simp [State.activate]
@[simp] theorem State.activate_ptab (c : Cvb) : (s.activate c).ptab = s.ptab := by simp [State.activate]
@[simp] theorem State.activate_groups (c : Cvb) : (s.activate c).groups = s.groups := by simp [State.activate]
@[simp] theorem State.activate_due (c : Cvb) : (s.activate c).due = s.due := by simp [State.activate]
@[simp] theorem State.activate_csu (c : Cvb) : (s.activate c).csu = s.csu := by simp [State.activate]
@[simp] theorem State.activate_cvb (c : Cvb) :
    (s.activate c).cvb = c := by simp [State.activate]
@[simp] theorem State.activate_cbi (c : Cvb) : (s.activate c).cbi = s.cbi := by simp [State.activate]
@[simp] theorem State.activate_freeCount (c : Cvb) : (s.activate c).freeCount = s.freeCount := by simp [State.activate]

/-! ### takeFrame -/

@[simp] theorem State.takeFrame_pending (bytes : List Byte) : (s.takeFrame bytes).pending = s.pending := rfl
@[simp] theorem State.takeFrame_now (bytes : List Byte) : (s.takeFrame bytes).now = s.now := rfl
@[simp] theorem State.takeFrame_phase (bytes : List Byte) : (s.takeFrame bytes).phase = s.phase := rfl
@[simp] theorem State.takeFrame_startingEnd (bytes : List Byte) : (s.takeFrame bytes).startingEnd = s.startingEnd := rfl
@[simp] theorem State.takeFrame_pins (bytes : List Byte) : (s.takeFrame bytes).pins = s.pins := rfl
@[simp] theorem State.takeFrame_clc (bytes : List Byte) :
    (s.takeFrame bytes).clc = { s.clc with rx := bytes, response := none, pollAnswer := none } := rfl
@[simp] theorem State.takeFrame_rate (bytes : List Byte) : (s.takeFrame bytes).rate = s.rate := rfl
@[simp] theorem State.takeFrame_rateNow (bytes : List Byte) : (s.takeFrame bytes).rateNow = s.rateNow := rfl
@[simp] theorem State.takeFrame_geo (bytes : List Byte) : (s.takeFrame bytes).geo = s.geo := rfl
@[simp] theorem State.takeFrame_held (bytes : List Byte) : (s.takeFrame bytes).held = s.held := rfl
@[simp] theorem State.takeFrame_tiles (bytes : List Byte) : (s.takeFrame bytes).tiles = s.tiles := rfl
@[simp] theorem State.takeFrame_ports (bytes : List Byte) : (s.takeFrame bytes).ports = s.ports := rfl
@[simp] theorem State.takeFrame_frames (bytes : List Byte) : (s.takeFrame bytes).frames = s.frames := rfl
@[simp] theorem State.takeFrame_cmp (bytes : List Byte) : (s.takeFrame bytes).cmp = s.cmp := rfl
@[simp] theorem State.takeFrame_links (bytes : List Byte) : (s.takeFrame bytes).links = s.links := rfl
@[simp] theorem State.takeFrame_bg (bytes : List Byte) : (s.takeFrame bytes).bg = s.bg := rfl
@[simp] theorem State.takeFrame_bgNow (bytes : List Byte) : (s.takeFrame bytes).bgNow = s.bgNow := rfl
@[simp] theorem State.takeFrame_sdir (bytes : List Byte) : (s.takeFrame bytes).sdir = s.sdir := rfl
@[simp] theorem State.takeFrame_store (bytes : List Byte) : (s.takeFrame bytes).store = s.store := rfl
@[simp] theorem State.takeFrame_storeEpoch (bytes : List Byte) : (s.takeFrame bytes).storeEpoch = s.storeEpoch := rfl
@[simp] theorem State.takeFrame_fsc (bytes : List Byte) : (s.takeFrame bytes).fsc = s.fsc := rfl
@[simp] theorem State.takeFrame_ptab (bytes : List Byte) : (s.takeFrame bytes).ptab = s.ptab := rfl
@[simp] theorem State.takeFrame_groups (bytes : List Byte) : (s.takeFrame bytes).groups = s.groups := rfl
@[simp] theorem State.takeFrame_due (bytes : List Byte) : (s.takeFrame bytes).due = s.due := rfl
@[simp] theorem State.takeFrame_csu (bytes : List Byte) : (s.takeFrame bytes).csu = s.csu := rfl
@[simp] theorem State.takeFrame_cvb (bytes : List Byte) : (s.takeFrame bytes).cvb = s.cvb := rfl
@[simp] theorem State.takeFrame_cbi (bytes : List Byte) : (s.takeFrame bytes).cbi = s.cbi := rfl
@[simp] theorem State.takeFrame_evb (bytes : List Byte) : (s.takeFrame bytes).evb = s.evb := rfl
@[simp] theorem State.takeFrame_freeCount (bytes : List Byte) : (s.takeFrame bytes).freeCount = s.freeCount := rfl

/-! ### deliver -/

@[simp] theorem State.deliver_pending (code : Nat) (broadcast overrun : Bool) (status : Status) (payload : Payload) : (s.deliver code broadcast overrun status payload).pending = s.pending := rfl
@[simp] theorem State.deliver_now (code : Nat) (broadcast overrun : Bool) (status : Status) (payload : Payload) : (s.deliver code broadcast overrun status payload).now = s.now := rfl
@[simp] theorem State.deliver_phase (code : Nat) (broadcast overrun : Bool) (status : Status) (payload : Payload) : (s.deliver code broadcast overrun status payload).phase = s.phase := rfl
@[simp] theorem State.deliver_startingEnd (code : Nat) (broadcast overrun : Bool) (status : Status) (payload : Payload) : (s.deliver code broadcast overrun status payload).startingEnd = s.startingEnd := rfl
@[simp] theorem State.deliver_pins (code : Nat) (broadcast overrun : Bool) (status : Status) (payload : Payload) : (s.deliver code broadcast overrun status payload).pins = s.pins := rfl
@[simp] theorem State.deliver_rate (code : Nat) (broadcast overrun : Bool) (status : Status) (payload : Payload) : (s.deliver code broadcast overrun status payload).rate = s.rate := rfl
@[simp] theorem State.deliver_rateNow (code : Nat) (broadcast overrun : Bool) (status : Status) (payload : Payload) : (s.deliver code broadcast overrun status payload).rateNow = s.rateNow := rfl
@[simp] theorem State.deliver_geo (code : Nat) (broadcast overrun : Bool) (status : Status) (payload : Payload) : (s.deliver code broadcast overrun status payload).geo = s.geo := rfl
@[simp] theorem State.deliver_held (code : Nat) (broadcast overrun : Bool) (status : Status) (payload : Payload) : (s.deliver code broadcast overrun status payload).held = s.held := rfl
@[simp] theorem State.deliver_tiles (code : Nat) (broadcast overrun : Bool) (status : Status) (payload : Payload) : (s.deliver code broadcast overrun status payload).tiles = s.tiles := rfl
@[simp] theorem State.deliver_ports (code : Nat) (broadcast overrun : Bool) (status : Status) (payload : Payload) : (s.deliver code broadcast overrun status payload).ports = s.ports := rfl
@[simp] theorem State.deliver_frames (code : Nat) (broadcast overrun : Bool) (status : Status) (payload : Payload) : (s.deliver code broadcast overrun status payload).frames = s.frames := rfl
@[simp] theorem State.deliver_cmp (code : Nat) (broadcast overrun : Bool) (status : Status) (payload : Payload) : (s.deliver code broadcast overrun status payload).cmp = s.cmp := rfl
@[simp] theorem State.deliver_links (code : Nat) (broadcast overrun : Bool) (status : Status) (payload : Payload) : (s.deliver code broadcast overrun status payload).links = s.links := rfl
@[simp] theorem State.deliver_bg (code : Nat) (broadcast overrun : Bool) (status : Status) (payload : Payload) : (s.deliver code broadcast overrun status payload).bg = s.bg := rfl
@[simp] theorem State.deliver_bgNow (code : Nat) (broadcast overrun : Bool) (status : Status) (payload : Payload) : (s.deliver code broadcast overrun status payload).bgNow = s.bgNow := rfl
@[simp] theorem State.deliver_sdir (code : Nat) (broadcast overrun : Bool) (status : Status) (payload : Payload) : (s.deliver code broadcast overrun status payload).sdir = s.sdir := rfl
@[simp] theorem State.deliver_store (code : Nat) (broadcast overrun : Bool) (status : Status) (payload : Payload) : (s.deliver code broadcast overrun status payload).store = s.store := rfl
@[simp] theorem State.deliver_storeEpoch (code : Nat) (broadcast overrun : Bool) (status : Status) (payload : Payload) : (s.deliver code broadcast overrun status payload).storeEpoch = s.storeEpoch := rfl
@[simp] theorem State.deliver_fsc (code : Nat) (broadcast overrun : Bool) (status : Status) (payload : Payload) : (s.deliver code broadcast overrun status payload).fsc = s.fsc := rfl
@[simp] theorem State.deliver_ptab (code : Nat) (broadcast overrun : Bool) (status : Status) (payload : Payload) : (s.deliver code broadcast overrun status payload).ptab = s.ptab := rfl
@[simp] theorem State.deliver_groups (code : Nat) (broadcast overrun : Bool) (status : Status) (payload : Payload) : (s.deliver code broadcast overrun status payload).groups = s.groups := rfl
@[simp] theorem State.deliver_due (code : Nat) (broadcast overrun : Bool) (status : Status) (payload : Payload) : (s.deliver code broadcast overrun status payload).due = s.due := rfl
@[simp] theorem State.deliver_csu (code : Nat) (broadcast overrun : Bool) (status : Status) (payload : Payload) : (s.deliver code broadcast overrun status payload).csu = s.csu := rfl
@[simp] theorem State.deliver_cvb (code : Nat) (broadcast overrun : Bool) (status : Status) (payload : Payload) : (s.deliver code broadcast overrun status payload).cvb = s.cvb := rfl
@[simp] theorem State.deliver_cbi (code : Nat) (broadcast overrun : Bool) (status : Status) (payload : Payload) : (s.deliver code broadcast overrun status payload).cbi = s.cbi := rfl
@[simp] theorem State.deliver_evb (code : Nat) (broadcast overrun : Bool) (status : Status) (payload : Payload) : (s.deliver code broadcast overrun status payload).evb = s.evb := rfl
@[simp] theorem State.deliver_freeCount (code : Nat) (broadcast overrun : Bool) (status : Status) (payload : Payload) : (s.deliver code broadcast overrun status payload).freeCount = s.freeCount := rfl

/-! ### hears -/

@[simp] theorem State.hears_pending (bytes : List Byte) : (s.hears bytes).pending = s.pending := by
  unfold State.hears; split <;> rfl
@[simp] theorem State.hears_now (bytes : List Byte) : (s.hears bytes).now = s.now := by
  unfold State.hears; split <;> rfl
@[simp] theorem State.hears_phase (bytes : List Byte) : (s.hears bytes).phase = s.phase := by
  unfold State.hears; split <;> rfl
@[simp] theorem State.hears_startingEnd (bytes : List Byte) : (s.hears bytes).startingEnd = s.startingEnd := by
  unfold State.hears; split <;> rfl
@[simp] theorem State.hears_clc (bytes : List Byte) : (s.hears bytes).clc = s.clc := by
  unfold State.hears; split <;> rfl
@[simp] theorem State.hears_rate (bytes : List Byte) : (s.hears bytes).rate = s.rate := by
  unfold State.hears; split <;> rfl
@[simp] theorem State.hears_rateNow (bytes : List Byte) : (s.hears bytes).rateNow = s.rateNow := by
  unfold State.hears; split <;> rfl
@[simp] theorem State.hears_geo (bytes : List Byte) : (s.hears bytes).geo = s.geo := by
  unfold State.hears; split <;> rfl
@[simp] theorem State.hears_held (bytes : List Byte) : (s.hears bytes).held = s.held := by
  unfold State.hears; split <;> rfl
@[simp] theorem State.hears_tiles (bytes : List Byte) : (s.hears bytes).tiles = s.tiles := by
  unfold State.hears; split <;> rfl
@[simp] theorem State.hears_ports (bytes : List Byte) : (s.hears bytes).ports = s.ports := by
  unfold State.hears; split <;> rfl
@[simp] theorem State.hears_frames (bytes : List Byte) : (s.hears bytes).frames = s.frames := by
  unfold State.hears; split <;> rfl
@[simp] theorem State.hears_cmp (bytes : List Byte) : (s.hears bytes).cmp = s.cmp := by
  unfold State.hears; split <;> rfl
@[simp] theorem State.hears_links (bytes : List Byte) : (s.hears bytes).links = s.links := by
  unfold State.hears; split <;> rfl
@[simp] theorem State.hears_bg (bytes : List Byte) : (s.hears bytes).bg = s.bg := by
  unfold State.hears; split <;> rfl
@[simp] theorem State.hears_bgNow (bytes : List Byte) : (s.hears bytes).bgNow = s.bgNow := by
  unfold State.hears; split <;> rfl
@[simp] theorem State.hears_sdir (bytes : List Byte) : (s.hears bytes).sdir = s.sdir := by
  unfold State.hears; split <;> rfl
@[simp] theorem State.hears_store (bytes : List Byte) : (s.hears bytes).store = s.store := by
  unfold State.hears; split <;> rfl
@[simp] theorem State.hears_storeEpoch (bytes : List Byte) : (s.hears bytes).storeEpoch = s.storeEpoch := by
  unfold State.hears; split <;> rfl
@[simp] theorem State.hears_fsc (bytes : List Byte) : (s.hears bytes).fsc = s.fsc := by
  unfold State.hears; split <;> rfl
@[simp] theorem State.hears_ptab (bytes : List Byte) : (s.hears bytes).ptab = s.ptab := by
  unfold State.hears; split <;> rfl
@[simp] theorem State.hears_groups (bytes : List Byte) : (s.hears bytes).groups = s.groups := by
  unfold State.hears; split <;> rfl
@[simp] theorem State.hears_due (bytes : List Byte) : (s.hears bytes).due = s.due := by
  unfold State.hears; split <;> rfl
@[simp] theorem State.hears_csu (bytes : List Byte) : (s.hears bytes).csu = s.csu := by
  unfold State.hears; split <;> rfl
@[simp] theorem State.hears_cvb (bytes : List Byte) : (s.hears bytes).cvb = s.cvb := by
  unfold State.hears; split <;> rfl
@[simp] theorem State.hears_cbi (bytes : List Byte) : (s.hears bytes).cbi = s.cbi := by
  unfold State.hears; split <;> rfl
@[simp] theorem State.hears_evb (bytes : List Byte) : (s.hears bytes).evb = s.evb := by
  unfold State.hears; split <;> rfl

/-! ### overrunBy -/

@[simp] theorem State.overrunBy_pending (unit code : Nat) : (s.overrunBy unit code).pending = s.pending := by simp [State.overrunBy]
@[simp] theorem State.overrunBy_now (unit code : Nat) : (s.overrunBy unit code).now = s.now := by simp [State.overrunBy]
@[simp] theorem State.overrunBy_phase (unit code : Nat) : (s.overrunBy unit code).phase = s.phase := by simp [State.overrunBy]
@[simp] theorem State.overrunBy_startingEnd (unit code : Nat) : (s.overrunBy unit code).startingEnd = s.startingEnd := by simp [State.overrunBy]
@[simp] theorem State.overrunBy_pins (unit code : Nat) : (s.overrunBy unit code).pins = s.pins := by simp [State.overrunBy]
@[simp] theorem State.overrunBy_clc (unit code : Nat) :
    (s.overrunBy unit code).clc = { s.clc with executing := s.clc.executing.map Executing.marked } := by simp [State.overrunBy]
@[simp] theorem State.overrunBy_rate (unit code : Nat) : (s.overrunBy unit code).rate = s.rate := by simp [State.overrunBy]
@[simp] theorem State.overrunBy_rateNow (unit code : Nat) : (s.overrunBy unit code).rateNow = s.rateNow := by simp [State.overrunBy]
@[simp] theorem State.overrunBy_geo (unit code : Nat) : (s.overrunBy unit code).geo = s.geo := by simp [State.overrunBy]
@[simp] theorem State.overrunBy_held (unit code : Nat) : (s.overrunBy unit code).held = s.held := by simp [State.overrunBy]
@[simp] theorem State.overrunBy_tiles (unit code : Nat) : (s.overrunBy unit code).tiles = s.tiles := by simp [State.overrunBy]
@[simp] theorem State.overrunBy_ports (unit code : Nat) : (s.overrunBy unit code).ports = s.ports := by simp [State.overrunBy]
@[simp] theorem State.overrunBy_frames (unit code : Nat) : (s.overrunBy unit code).frames = s.frames := by simp [State.overrunBy]
@[simp] theorem State.overrunBy_cmp (unit code : Nat) : (s.overrunBy unit code).cmp = s.cmp := by simp [State.overrunBy]
@[simp] theorem State.overrunBy_links (unit code : Nat) : (s.overrunBy unit code).links = s.links := by simp [State.overrunBy]
@[simp] theorem State.overrunBy_bg (unit code : Nat) : (s.overrunBy unit code).bg = s.bg := by simp [State.overrunBy]
@[simp] theorem State.overrunBy_bgNow (unit code : Nat) : (s.overrunBy unit code).bgNow = s.bgNow := by simp [State.overrunBy]
@[simp] theorem State.overrunBy_sdir (unit code : Nat) : (s.overrunBy unit code).sdir = s.sdir := by simp [State.overrunBy]
@[simp] theorem State.overrunBy_store (unit code : Nat) : (s.overrunBy unit code).store = s.store := by simp [State.overrunBy]
@[simp] theorem State.overrunBy_storeEpoch (unit code : Nat) : (s.overrunBy unit code).storeEpoch = s.storeEpoch := by simp [State.overrunBy]
@[simp] theorem State.overrunBy_fsc (unit code : Nat) : (s.overrunBy unit code).fsc = s.fsc := by simp [State.overrunBy]
@[simp] theorem State.overrunBy_ptab (unit code : Nat) : (s.overrunBy unit code).ptab = s.ptab := by simp [State.overrunBy]
@[simp] theorem State.overrunBy_groups (unit code : Nat) : (s.overrunBy unit code).groups = s.groups := by simp [State.overrunBy]
@[simp] theorem State.overrunBy_due (unit code : Nat) : (s.overrunBy unit code).due = s.due := by simp [State.overrunBy]
@[simp] theorem State.overrunBy_csu (unit code : Nat) : (s.overrunBy unit code).csu = s.csu := by simp [State.overrunBy]
@[simp] theorem State.overrunBy_cvb (unit code : Nat) : (s.overrunBy unit code).cvb = s.cvb := by simp [State.overrunBy]
@[simp] theorem State.overrunBy_cbi (unit code : Nat) : (s.overrunBy unit code).cbi = s.cbi := by simp [State.overrunBy]
@[simp] theorem State.overrunBy_freeCount (unit code : Nat) : (s.overrunBy unit code).freeCount = s.freeCount := by simp [State.overrunBy]

/-! ### grant -/

@[simp] theorem State.grant_pending : (s.grant).pending = s.pending := rfl
@[simp] theorem State.grant_now : (s.grant).now = s.now := rfl
@[simp] theorem State.grant_phase : (s.grant).phase = s.phase := rfl
@[simp] theorem State.grant_startingEnd : (s.grant).startingEnd = s.startingEnd := rfl
@[simp] theorem State.grant_pins : (s.grant).pins = s.pins := rfl
@[simp] theorem State.grant_clc : (s.grant).clc = s.clc := rfl
@[simp] theorem State.grant_rate : (s.grant).rate = s.rate := rfl
@[simp] theorem State.grant_rateNow : (s.grant).rateNow = s.rateNow := rfl
@[simp] theorem State.grant_geo : (s.grant).geo = s.geo := rfl
@[simp] theorem State.grant_held : (s.grant).held = s.held := rfl
@[simp] theorem State.grant_tiles : (s.grant).tiles = s.tiles := rfl
@[simp] theorem State.grant_ports : (s.grant).ports = s.ports := rfl
@[simp] theorem State.grant_frames : (s.grant).frames = s.frames := rfl
@[simp] theorem State.grant_cmp : (s.grant).cmp = s.cmp := rfl
@[simp] theorem State.grant_links : (s.grant).links = s.links := rfl
@[simp] theorem State.grant_bg : (s.grant).bg = s.bg := rfl
@[simp] theorem State.grant_bgNow : (s.grant).bgNow = s.bgNow := rfl
@[simp] theorem State.grant_sdir : (s.grant).sdir = s.sdir := rfl
@[simp] theorem State.grant_store : (s.grant).store = s.store := rfl
@[simp] theorem State.grant_storeEpoch : (s.grant).storeEpoch = s.storeEpoch := rfl
@[simp] theorem State.grant_fsc :
    (s.grant).fsc = if s.phase = .starting then s.fsc else s.fsc.granted s.now := rfl
@[simp] theorem State.grant_ptab : (s.grant).ptab = s.ptab := rfl
@[simp] theorem State.grant_groups : (s.grant).groups = s.groups := rfl
@[simp] theorem State.grant_due : (s.grant).due = s.due := rfl
@[simp] theorem State.grant_csu : (s.grant).csu = s.csu := rfl
@[simp] theorem State.grant_cvb : (s.grant).cvb = s.cvb := rfl
@[simp] theorem State.grant_cbi : (s.grant).cbi = s.cbi := rfl
@[simp] theorem State.grant_evb : (s.grant).evb = s.evb := rfl
@[simp] theorem State.grant_freeCount : (s.grant).freeCount = s.freeCount := rfl

/-! ### requestLine -/

@[simp] theorem State.requestLine_pending (t : TileId) (py : Nat) : (s.requestLine t py).pending = s.pending := rfl
@[simp] theorem State.requestLine_now (t : TileId) (py : Nat) : (s.requestLine t py).now = s.now := rfl
@[simp] theorem State.requestLine_phase (t : TileId) (py : Nat) : (s.requestLine t py).phase = s.phase := rfl
@[simp] theorem State.requestLine_startingEnd (t : TileId) (py : Nat) : (s.requestLine t py).startingEnd = s.startingEnd := rfl
@[simp] theorem State.requestLine_pins (t : TileId) (py : Nat) : (s.requestLine t py).pins = s.pins := rfl
@[simp] theorem State.requestLine_clc (t : TileId) (py : Nat) : (s.requestLine t py).clc = s.clc := rfl
@[simp] theorem State.requestLine_rate (t : TileId) (py : Nat) : (s.requestLine t py).rate = s.rate := rfl
@[simp] theorem State.requestLine_rateNow (t : TileId) (py : Nat) : (s.requestLine t py).rateNow = s.rateNow := rfl
@[simp] theorem State.requestLine_geo (t : TileId) (py : Nat) : (s.requestLine t py).geo = s.geo := rfl
@[simp] theorem State.requestLine_held (t : TileId) (py : Nat) : (s.requestLine t py).held = s.held := rfl
@[simp] theorem State.requestLine_tiles (t : TileId) (py : Nat) : (s.requestLine t py).tiles = s.tiles := rfl
@[simp] theorem State.requestLine_ports (t : TileId) (py : Nat) : (s.requestLine t py).ports = s.ports := rfl
@[simp] theorem State.requestLine_frames (t : TileId) (py : Nat) : (s.requestLine t py).frames = s.frames := rfl
@[simp] theorem State.requestLine_links (t : TileId) (py : Nat) : (s.requestLine t py).links = s.links := rfl
@[simp] theorem State.requestLine_bg (t : TileId) (py : Nat) : (s.requestLine t py).bg = s.bg := rfl
@[simp] theorem State.requestLine_bgNow (t : TileId) (py : Nat) : (s.requestLine t py).bgNow = s.bgNow := rfl
@[simp] theorem State.requestLine_sdir (t : TileId) (py : Nat) : (s.requestLine t py).sdir = s.sdir := rfl
@[simp] theorem State.requestLine_store (t : TileId) (py : Nat) : (s.requestLine t py).store = s.store := rfl
@[simp] theorem State.requestLine_storeEpoch (t : TileId) (py : Nat) : (s.requestLine t py).storeEpoch = s.storeEpoch := rfl
@[simp] theorem State.requestLine_ptab (t : TileId) (py : Nat) : (s.requestLine t py).ptab = s.ptab := rfl
@[simp] theorem State.requestLine_groups (t : TileId) (py : Nat) : (s.requestLine t py).groups = s.groups := rfl
@[simp] theorem State.requestLine_due (t : TileId) (py : Nat) : (s.requestLine t py).due = s.due := rfl
@[simp] theorem State.requestLine_csu (t : TileId) (py : Nat) : (s.requestLine t py).csu = s.csu := rfl
@[simp] theorem State.requestLine_cvb (t : TileId) (py : Nat) : (s.requestLine t py).cvb = s.cvb := rfl
@[simp] theorem State.requestLine_cbi (t : TileId) (py : Nat) : (s.requestLine t py).cbi = s.cbi := rfl
@[simp] theorem State.requestLine_evb (t : TileId) (py : Nat) : (s.requestLine t py).evb = s.evb := rfl
@[simp] theorem State.requestLine_freeCount (t : TileId) (py : Nat) : (s.requestLine t py).freeCount = s.freeCount := rfl

/-! ### putLine -/

@[simp] theorem State.putLine_pending (t : TileId) (line : List Rgb) : (s.putLine t line).pending = s.pending := rfl
@[simp] theorem State.putLine_now (t : TileId) (line : List Rgb) : (s.putLine t line).now = s.now := rfl
@[simp] theorem State.putLine_phase (t : TileId) (line : List Rgb) : (s.putLine t line).phase = s.phase := rfl
@[simp] theorem State.putLine_startingEnd (t : TileId) (line : List Rgb) : (s.putLine t line).startingEnd = s.startingEnd := rfl
@[simp] theorem State.putLine_pins (t : TileId) (line : List Rgb) : (s.putLine t line).pins = s.pins := rfl
@[simp] theorem State.putLine_clc (t : TileId) (line : List Rgb) : (s.putLine t line).clc = s.clc := rfl
@[simp] theorem State.putLine_rate (t : TileId) (line : List Rgb) : (s.putLine t line).rate = s.rate := rfl
@[simp] theorem State.putLine_rateNow (t : TileId) (line : List Rgb) : (s.putLine t line).rateNow = s.rateNow := rfl
@[simp] theorem State.putLine_geo (t : TileId) (line : List Rgb) : (s.putLine t line).geo = s.geo := rfl
@[simp] theorem State.putLine_held (t : TileId) (line : List Rgb) : (s.putLine t line).held = s.held := rfl
@[simp] theorem State.putLine_tiles (t : TileId) (line : List Rgb) : (s.putLine t line).tiles = s.tiles := rfl
@[simp] theorem State.putLine_ports (t : TileId) (line : List Rgb) : (s.putLine t line).ports = s.ports := rfl
@[simp] theorem State.putLine_frames (t : TileId) (line : List Rgb) : (s.putLine t line).frames = s.frames := rfl
@[simp] theorem State.putLine_cmp (t : TileId) (line : List Rgb) : (s.putLine t line).cmp = s.cmp := rfl
@[simp] theorem State.putLine_links (t : TileId) (line : List Rgb) :
    (s.putLine t line).links = s.links.modify t fun l => { l with line := some line } := rfl
@[simp] theorem State.putLine_bg (t : TileId) (line : List Rgb) : (s.putLine t line).bg = s.bg := rfl
@[simp] theorem State.putLine_bgNow (t : TileId) (line : List Rgb) : (s.putLine t line).bgNow = s.bgNow := rfl
@[simp] theorem State.putLine_sdir (t : TileId) (line : List Rgb) : (s.putLine t line).sdir = s.sdir := rfl
@[simp] theorem State.putLine_store (t : TileId) (line : List Rgb) : (s.putLine t line).store = s.store := rfl
@[simp] theorem State.putLine_storeEpoch (t : TileId) (line : List Rgb) : (s.putLine t line).storeEpoch = s.storeEpoch := rfl
@[simp] theorem State.putLine_fsc (t : TileId) (line : List Rgb) : (s.putLine t line).fsc = s.fsc := rfl
@[simp] theorem State.putLine_ptab (t : TileId) (line : List Rgb) : (s.putLine t line).ptab = s.ptab := rfl
@[simp] theorem State.putLine_groups (t : TileId) (line : List Rgb) : (s.putLine t line).groups = s.groups := rfl
@[simp] theorem State.putLine_due (t : TileId) (line : List Rgb) : (s.putLine t line).due = s.due := rfl
@[simp] theorem State.putLine_csu (t : TileId) (line : List Rgb) : (s.putLine t line).csu = s.csu := rfl
@[simp] theorem State.putLine_cvb (t : TileId) (line : List Rgb) : (s.putLine t line).cvb = s.cvb := rfl
@[simp] theorem State.putLine_cbi (t : TileId) (line : List Rgb) : (s.putLine t line).cbi = s.cbi := rfl
@[simp] theorem State.putLine_evb (t : TileId) (line : List Rgb) : (s.putLine t line).evb = s.evb := rfl
@[simp] theorem State.putLine_freeCount (t : TileId) (line : List Rgb) : (s.putLine t line).freeCount = s.freeCount := rfl

/-! ### sendPicture -/

@[simp] theorem State.sendPicture_pending (t : TileId) (line : List Rgb) : (s.sendPicture t line).pending = s.pending := by simp [State.sendPicture]
@[simp] theorem State.sendPicture_now (t : TileId) (line : List Rgb) : (s.sendPicture t line).now = s.now := by simp [State.sendPicture]
@[simp] theorem State.sendPicture_phase (t : TileId) (line : List Rgb) : (s.sendPicture t line).phase = s.phase := by simp [State.sendPicture]
@[simp] theorem State.sendPicture_startingEnd (t : TileId) (line : List Rgb) : (s.sendPicture t line).startingEnd = s.startingEnd := by simp [State.sendPicture]
@[simp] theorem State.sendPicture_pins (t : TileId) (line : List Rgb) : (s.sendPicture t line).pins = s.pins := by simp [State.sendPicture]
@[simp] theorem State.sendPicture_clc (t : TileId) (line : List Rgb) : (s.sendPicture t line).clc = s.clc := by simp [State.sendPicture]
@[simp] theorem State.sendPicture_rate (t : TileId) (line : List Rgb) : (s.sendPicture t line).rate = s.rate := by simp [State.sendPicture]
@[simp] theorem State.sendPicture_rateNow (t : TileId) (line : List Rgb) : (s.sendPicture t line).rateNow = s.rateNow := by simp [State.sendPicture]
@[simp] theorem State.sendPicture_geo (t : TileId) (line : List Rgb) : (s.sendPicture t line).geo = s.geo := by simp [State.sendPicture]
@[simp] theorem State.sendPicture_held (t : TileId) (line : List Rgb) : (s.sendPicture t line).held = s.held := by simp [State.sendPicture]
@[simp] theorem State.sendPicture_tiles (t : TileId) (line : List Rgb) : (s.sendPicture t line).tiles = s.tiles := by simp [State.sendPicture]
@[simp] theorem State.sendPicture_ports (t : TileId) (line : List Rgb) : (s.sendPicture t line).ports = s.ports := by simp [State.sendPicture]
@[simp] theorem State.sendPicture_frames (t : TileId) (line : List Rgb) : (s.sendPicture t line).frames = s.frames := by simp [State.sendPicture]
@[simp] theorem State.sendPicture_cmp (t : TileId) (line : List Rgb) :
    (s.sendPicture t line).cmp = s.cmp.modify t fun c => { c with formed := none, previous := some line } := by simp [State.sendPicture]
@[simp] theorem State.sendPicture_bg (t : TileId) (line : List Rgb) : (s.sendPicture t line).bg = s.bg := by simp [State.sendPicture]
@[simp] theorem State.sendPicture_bgNow (t : TileId) (line : List Rgb) : (s.sendPicture t line).bgNow = s.bgNow := by simp [State.sendPicture]
@[simp] theorem State.sendPicture_sdir (t : TileId) (line : List Rgb) : (s.sendPicture t line).sdir = s.sdir := by simp [State.sendPicture]
@[simp] theorem State.sendPicture_store (t : TileId) (line : List Rgb) : (s.sendPicture t line).store = s.store := by simp [State.sendPicture]
@[simp] theorem State.sendPicture_storeEpoch (t : TileId) (line : List Rgb) : (s.sendPicture t line).storeEpoch = s.storeEpoch := by simp [State.sendPicture]
@[simp] theorem State.sendPicture_fsc (t : TileId) (line : List Rgb) : (s.sendPicture t line).fsc = s.fsc := by simp [State.sendPicture]
@[simp] theorem State.sendPicture_ptab (t : TileId) (line : List Rgb) : (s.sendPicture t line).ptab = s.ptab := by simp [State.sendPicture]
@[simp] theorem State.sendPicture_groups (t : TileId) (line : List Rgb) : (s.sendPicture t line).groups = s.groups := by simp [State.sendPicture]
@[simp] theorem State.sendPicture_due (t : TileId) (line : List Rgb) : (s.sendPicture t line).due = s.due := by simp [State.sendPicture]
@[simp] theorem State.sendPicture_csu (t : TileId) (line : List Rgb) : (s.sendPicture t line).csu = s.csu := by simp [State.sendPicture]
@[simp] theorem State.sendPicture_cvb (t : TileId) (line : List Rgb) : (s.sendPicture t line).cvb = s.cvb := by simp [State.sendPicture]
@[simp] theorem State.sendPicture_cbi (t : TileId) (line : List Rgb) : (s.sendPicture t line).cbi = s.cbi := by simp [State.sendPicture]
@[simp] theorem State.sendPicture_evb (t : TileId) (line : List Rgb) : (s.sendPicture t line).evb = s.evb := by simp [State.sendPicture]
@[simp] theorem State.sendPicture_freeCount (t : TileId) (line : List Rgb) : (s.sendPicture t line).freeCount = s.freeCount := by simp [State.sendPicture]

/-! ### underrun -/

@[simp] theorem State.underrun_pending (t : TileId) (py : Nat) : (s.underrun t py).pending = s.pending := by simp [State.underrun]
@[simp] theorem State.underrun_now (t : TileId) (py : Nat) : (s.underrun t py).now = s.now := by simp [State.underrun]
@[simp] theorem State.underrun_phase (t : TileId) (py : Nat) : (s.underrun t py).phase = s.phase := by simp [State.underrun]
@[simp] theorem State.underrun_startingEnd (t : TileId) (py : Nat) : (s.underrun t py).startingEnd = s.startingEnd := by simp [State.underrun]
@[simp] theorem State.underrun_pins (t : TileId) (py : Nat) : (s.underrun t py).pins = s.pins := by simp [State.underrun]
@[simp] theorem State.underrun_clc (t : TileId) (py : Nat) : (s.underrun t py).clc = s.clc := by simp [State.underrun]
@[simp] theorem State.underrun_rate (t : TileId) (py : Nat) : (s.underrun t py).rate = s.rate := by simp [State.underrun]
@[simp] theorem State.underrun_rateNow (t : TileId) (py : Nat) : (s.underrun t py).rateNow = s.rateNow := by simp [State.underrun]
@[simp] theorem State.underrun_geo (t : TileId) (py : Nat) : (s.underrun t py).geo = s.geo := by simp [State.underrun]
@[simp] theorem State.underrun_held (t : TileId) (py : Nat) : (s.underrun t py).held = s.held := by simp [State.underrun]
@[simp] theorem State.underrun_tiles (t : TileId) (py : Nat) : (s.underrun t py).tiles = s.tiles := by simp [State.underrun]
@[simp] theorem State.underrun_ports (t : TileId) (py : Nat) : (s.underrun t py).ports = s.ports := by simp [State.underrun]
@[simp] theorem State.underrun_frames (t : TileId) (py : Nat) : (s.underrun t py).frames = s.frames := by simp [State.underrun]
@[simp] theorem State.underrun_bg (t : TileId) (py : Nat) : (s.underrun t py).bg = s.bg := by simp [State.underrun]
@[simp] theorem State.underrun_bgNow (t : TileId) (py : Nat) : (s.underrun t py).bgNow = s.bgNow := by simp [State.underrun]
@[simp] theorem State.underrun_sdir (t : TileId) (py : Nat) : (s.underrun t py).sdir = s.sdir := by simp [State.underrun]
@[simp] theorem State.underrun_store (t : TileId) (py : Nat) : (s.underrun t py).store = s.store := by simp [State.underrun]
@[simp] theorem State.underrun_storeEpoch (t : TileId) (py : Nat) : (s.underrun t py).storeEpoch = s.storeEpoch := by simp [State.underrun]
@[simp] theorem State.underrun_fsc (t : TileId) (py : Nat) :
    (s.underrun t py).fsc = s.fsc.cancelFetch t := by simp [State.underrun]
@[simp] theorem State.underrun_ptab (t : TileId) (py : Nat) : (s.underrun t py).ptab = s.ptab := by simp [State.underrun]
@[simp] theorem State.underrun_groups (t : TileId) (py : Nat) : (s.underrun t py).groups = s.groups := by simp [State.underrun]
@[simp] theorem State.underrun_due (t : TileId) (py : Nat) : (s.underrun t py).due = s.due := by simp [State.underrun]
@[simp] theorem State.underrun_csu (t : TileId) (py : Nat) : (s.underrun t py).csu = s.csu := by simp [State.underrun]
@[simp] theorem State.underrun_cvb (t : TileId) (py : Nat) : (s.underrun t py).cvb = s.cvb := by simp [State.underrun]
@[simp] theorem State.underrun_cbi (t : TileId) (py : Nat) : (s.underrun t py).cbi = s.cbi := by simp [State.underrun]
@[simp] theorem State.underrun_freeCount (t : TileId) (py : Nat) : (s.underrun t py).freeCount = s.freeCount := by simp [State.underrun]

/-! ### advanceLine -/

@[simp] theorem State.advanceLine_pending (t : TileId) : (s.advanceLine t).pending = s.pending := rfl
@[simp] theorem State.advanceLine_now (t : TileId) : (s.advanceLine t).now = s.now := rfl
@[simp] theorem State.advanceLine_phase (t : TileId) : (s.advanceLine t).phase = s.phase := rfl
@[simp] theorem State.advanceLine_startingEnd (t : TileId) : (s.advanceLine t).startingEnd = s.startingEnd := rfl
@[simp] theorem State.advanceLine_pins (t : TileId) : (s.advanceLine t).pins = s.pins := rfl
@[simp] theorem State.advanceLine_clc (t : TileId) : (s.advanceLine t).clc = s.clc := rfl
@[simp] theorem State.advanceLine_rate (t : TileId) : (s.advanceLine t).rate = s.rate := rfl
@[simp] theorem State.advanceLine_rateNow (t : TileId) : (s.advanceLine t).rateNow = s.rateNow := rfl
@[simp] theorem State.advanceLine_geo (t : TileId) : (s.advanceLine t).geo = s.geo := rfl
@[simp] theorem State.advanceLine_held (t : TileId) : (s.advanceLine t).held = s.held := rfl
@[simp] theorem State.advanceLine_tiles (t : TileId) : (s.advanceLine t).tiles = s.tiles := rfl
@[simp] theorem State.advanceLine_ports (t : TileId) : (s.advanceLine t).ports = s.ports := rfl
@[simp] theorem State.advanceLine_frames (t : TileId) :
    (s.advanceLine t).frames = s.frames.modify t fun f => { f with nextLine := f.nextLine + 1 } := rfl
@[simp] theorem State.advanceLine_cmp (t : TileId) : (s.advanceLine t).cmp = s.cmp := rfl
@[simp] theorem State.advanceLine_links (t : TileId) : (s.advanceLine t).links = s.links := rfl
@[simp] theorem State.advanceLine_bg (t : TileId) : (s.advanceLine t).bg = s.bg := rfl
@[simp] theorem State.advanceLine_bgNow (t : TileId) : (s.advanceLine t).bgNow = s.bgNow := rfl
@[simp] theorem State.advanceLine_sdir (t : TileId) : (s.advanceLine t).sdir = s.sdir := rfl
@[simp] theorem State.advanceLine_store (t : TileId) : (s.advanceLine t).store = s.store := rfl
@[simp] theorem State.advanceLine_storeEpoch (t : TileId) : (s.advanceLine t).storeEpoch = s.storeEpoch := rfl
@[simp] theorem State.advanceLine_fsc (t : TileId) : (s.advanceLine t).fsc = s.fsc := rfl
@[simp] theorem State.advanceLine_ptab (t : TileId) : (s.advanceLine t).ptab = s.ptab := rfl
@[simp] theorem State.advanceLine_groups (t : TileId) : (s.advanceLine t).groups = s.groups := rfl
@[simp] theorem State.advanceLine_due (t : TileId) : (s.advanceLine t).due = s.due := rfl
@[simp] theorem State.advanceLine_csu (t : TileId) : (s.advanceLine t).csu = s.csu := rfl
@[simp] theorem State.advanceLine_cvb (t : TileId) : (s.advanceLine t).cvb = s.cvb := rfl
@[simp] theorem State.advanceLine_cbi (t : TileId) : (s.advanceLine t).cbi = s.cbi := rfl
@[simp] theorem State.advanceLine_evb (t : TileId) : (s.advanceLine t).evb = s.evb := rfl
@[simp] theorem State.advanceLine_freeCount (t : TileId) : (s.advanceLine t).freeCount = s.freeCount := rfl

/-! ### changePort -/

@[simp] theorem State.changePort_pending (t : TileId) (r : Port × List PortState) : (s.changePort t r).pending = s.pending := by simp [State.changePort]
@[simp] theorem State.changePort_now (t : TileId) (r : Port × List PortState) : (s.changePort t r).now = s.now := by simp [State.changePort]
@[simp] theorem State.changePort_phase (t : TileId) (r : Port × List PortState) : (s.changePort t r).phase = s.phase := by simp [State.changePort]
@[simp] theorem State.changePort_startingEnd (t : TileId) (r : Port × List PortState) : (s.changePort t r).startingEnd = s.startingEnd := by simp [State.changePort]
@[simp] theorem State.changePort_pins (t : TileId) (r : Port × List PortState) : (s.changePort t r).pins = s.pins := by simp [State.changePort]
@[simp] theorem State.changePort_clc (t : TileId) (r : Port × List PortState) : (s.changePort t r).clc = s.clc := by simp [State.changePort]
@[simp] theorem State.changePort_rate (t : TileId) (r : Port × List PortState) : (s.changePort t r).rate = s.rate := by simp [State.changePort]
@[simp] theorem State.changePort_rateNow (t : TileId) (r : Port × List PortState) : (s.changePort t r).rateNow = s.rateNow := by simp [State.changePort]
@[simp] theorem State.changePort_geo (t : TileId) (r : Port × List PortState) : (s.changePort t r).geo = s.geo := by simp [State.changePort]
@[simp] theorem State.changePort_held (t : TileId) (r : Port × List PortState) : (s.changePort t r).held = s.held := by simp [State.changePort]
@[simp] theorem State.changePort_tiles (t : TileId) (r : Port × List PortState) : (s.changePort t r).tiles = s.tiles := by simp [State.changePort]
@[simp] theorem State.changePort_ports (t : TileId) (r : Port × List PortState) :
    (s.changePort t r).ports = s.ports.set t r.1 := by simp [State.changePort]
@[simp] theorem State.changePort_frames (t : TileId) (r : Port × List PortState) : (s.changePort t r).frames = s.frames := by simp [State.changePort]
@[simp] theorem State.changePort_cmp (t : TileId) (r : Port × List PortState) : (s.changePort t r).cmp = s.cmp := by simp [State.changePort]
@[simp] theorem State.changePort_links (t : TileId) (r : Port × List PortState) : (s.changePort t r).links = s.links := by simp [State.changePort]
@[simp] theorem State.changePort_bg (t : TileId) (r : Port × List PortState) : (s.changePort t r).bg = s.bg := by simp [State.changePort]
@[simp] theorem State.changePort_bgNow (t : TileId) (r : Port × List PortState) : (s.changePort t r).bgNow = s.bgNow := by simp [State.changePort]
@[simp] theorem State.changePort_sdir (t : TileId) (r : Port × List PortState) : (s.changePort t r).sdir = s.sdir := by simp [State.changePort]
@[simp] theorem State.changePort_store (t : TileId) (r : Port × List PortState) : (s.changePort t r).store = s.store := by simp [State.changePort]
@[simp] theorem State.changePort_storeEpoch (t : TileId) (r : Port × List PortState) : (s.changePort t r).storeEpoch = s.storeEpoch := by simp [State.changePort]
@[simp] theorem State.changePort_fsc (t : TileId) (r : Port × List PortState) : (s.changePort t r).fsc = s.fsc := by simp [State.changePort]
@[simp] theorem State.changePort_ptab (t : TileId) (r : Port × List PortState) : (s.changePort t r).ptab = s.ptab := by simp [State.changePort]
@[simp] theorem State.changePort_groups (t : TileId) (r : Port × List PortState) : (s.changePort t r).groups = s.groups := by simp [State.changePort]
@[simp] theorem State.changePort_due (t : TileId) (r : Port × List PortState) : (s.changePort t r).due = s.due := by simp [State.changePort]
@[simp] theorem State.changePort_csu (t : TileId) (r : Port × List PortState) : (s.changePort t r).csu = s.csu := by simp [State.changePort]
@[simp] theorem State.changePort_cvb (t : TileId) (r : Port × List PortState) : (s.changePort t r).cvb = s.cvb := by simp [State.changePort]
@[simp] theorem State.changePort_cbi (t : TileId) (r : Port × List PortState) : (s.changePort t r).cbi = s.cbi := by simp [State.changePort]
@[simp] theorem State.changePort_freeCount (t : TileId) (r : Port × List PortState) : (s.changePort t r).freeCount = s.freeCount := by simp [State.changePort]

/-! ### stepPorts -/

@[simp] theorem State.stepPorts_pending : (s.stepPorts).pending = s.pending := by simp [State.stepPorts]
@[simp] theorem State.stepPorts_now : (s.stepPorts).now = s.now := by simp [State.stepPorts]
@[simp] theorem State.stepPorts_phase : (s.stepPorts).phase = s.phase := by simp [State.stepPorts]
@[simp] theorem State.stepPorts_startingEnd : (s.stepPorts).startingEnd = s.startingEnd := by simp [State.stepPorts]
@[simp] theorem State.stepPorts_pins : (s.stepPorts).pins = s.pins := by simp [State.stepPorts]
@[simp] theorem State.stepPorts_clc : (s.stepPorts).clc = s.clc := by simp [State.stepPorts]
@[simp] theorem State.stepPorts_rate : (s.stepPorts).rate = s.rate := by simp [State.stepPorts]
@[simp] theorem State.stepPorts_rateNow : (s.stepPorts).rateNow = s.rateNow := by simp [State.stepPorts]
@[simp] theorem State.stepPorts_geo : (s.stepPorts).geo = s.geo := by simp [State.stepPorts]
@[simp] theorem State.stepPorts_held : (s.stepPorts).held = s.held := by simp [State.stepPorts]
@[simp] theorem State.stepPorts_tiles : (s.stepPorts).tiles = s.tiles := by simp [State.stepPorts]
@[simp] theorem State.stepPorts_ports :
    (s.stepPorts).ports = Table.ofFn fun t => (s.portStep t).1 := by simp [State.stepPorts]
@[simp] theorem State.stepPorts_frames : (s.stepPorts).frames = s.frames := by simp [State.stepPorts]
@[simp] theorem State.stepPorts_cmp : (s.stepPorts).cmp = s.cmp := by simp [State.stepPorts]
@[simp] theorem State.stepPorts_links : (s.stepPorts).links = s.links := by simp [State.stepPorts]
@[simp] theorem State.stepPorts_bg : (s.stepPorts).bg = s.bg := by simp [State.stepPorts]
@[simp] theorem State.stepPorts_bgNow : (s.stepPorts).bgNow = s.bgNow := by simp [State.stepPorts]
@[simp] theorem State.stepPorts_sdir : (s.stepPorts).sdir = s.sdir := by simp [State.stepPorts]
@[simp] theorem State.stepPorts_store : (s.stepPorts).store = s.store := by simp [State.stepPorts]
@[simp] theorem State.stepPorts_storeEpoch : (s.stepPorts).storeEpoch = s.storeEpoch := by simp [State.stepPorts]
@[simp] theorem State.stepPorts_fsc : (s.stepPorts).fsc = s.fsc := by simp [State.stepPorts]
@[simp] theorem State.stepPorts_ptab : (s.stepPorts).ptab = s.ptab := by simp [State.stepPorts]
@[simp] theorem State.stepPorts_groups : (s.stepPorts).groups = s.groups := by simp [State.stepPorts]
@[simp] theorem State.stepPorts_due : (s.stepPorts).due = s.due := by simp [State.stepPorts]
@[simp] theorem State.stepPorts_csu : (s.stepPorts).csu = s.csu := by simp [State.stepPorts]
@[simp] theorem State.stepPorts_cvb : (s.stepPorts).cvb = s.cvb := by simp [State.stepPorts]
@[simp] theorem State.stepPorts_cbi : (s.stepPorts).cbi = s.cbi := by simp [State.stepPorts]
@[simp] theorem State.stepPorts_freeCount : (s.stepPorts).freeCount = s.freeCount := by simp [State.stepPorts]

/-! ### openFrames -/

@[simp] theorem State.openFrames_pending (old : Table Port 16) : (s.openFrames old).pending = s.pending := rfl
@[simp] theorem State.openFrames_now (old : Table Port 16) : (s.openFrames old).now = s.now := rfl
@[simp] theorem State.openFrames_phase (old : Table Port 16) : (s.openFrames old).phase = s.phase := rfl
@[simp] theorem State.openFrames_startingEnd (old : Table Port 16) : (s.openFrames old).startingEnd = s.startingEnd := rfl
@[simp] theorem State.openFrames_pins (old : Table Port 16) : (s.openFrames old).pins = s.pins := rfl
@[simp] theorem State.openFrames_clc (old : Table Port 16) : (s.openFrames old).clc = s.clc := rfl
@[simp] theorem State.openFrames_rate (old : Table Port 16) : (s.openFrames old).rate = s.rate := rfl
@[simp] theorem State.openFrames_rateNow (old : Table Port 16) : (s.openFrames old).rateNow = s.rateNow := rfl
@[simp] theorem State.openFrames_geo (old : Table Port 16) : (s.openFrames old).geo = s.geo := rfl
@[simp] theorem State.openFrames_held (old : Table Port 16) : (s.openFrames old).held = s.held := rfl
@[simp] theorem State.openFrames_tiles (old : Table Port 16) : (s.openFrames old).tiles = s.tiles := rfl
@[simp] theorem State.openFrames_ports (old : Table Port 16) : (s.openFrames old).ports = s.ports := rfl
@[simp] theorem State.openFrames_frames (old : Table Port 16) :
    (s.openFrames old).frames = Table.ofFn fun t => s.openFrameOf old t := rfl
@[simp] theorem State.openFrames_cmp (old : Table Port 16) :
    (s.openFrames old).cmp = s.cmp.mapIdx fun _ c => { c with formed := none } := rfl
@[simp] theorem State.openFrames_bg (old : Table Port 16) : (s.openFrames old).bg = s.bg := rfl
@[simp] theorem State.openFrames_bgNow (old : Table Port 16) : (s.openFrames old).bgNow = s.bgNow := rfl
@[simp] theorem State.openFrames_sdir (old : Table Port 16) : (s.openFrames old).sdir = s.sdir := rfl
@[simp] theorem State.openFrames_store (old : Table Port 16) : (s.openFrames old).store = s.store := rfl
@[simp] theorem State.openFrames_storeEpoch (old : Table Port 16) : (s.openFrames old).storeEpoch = s.storeEpoch := rfl
@[simp] theorem State.openFrames_fsc (old : Table Port 16) :
    (s.openFrames old).fsc = s.fsc.cancelFetches := rfl
@[simp] theorem State.openFrames_ptab (old : Table Port 16) : (s.openFrames old).ptab = s.ptab := rfl
@[simp] theorem State.openFrames_groups (old : Table Port 16) : (s.openFrames old).groups = s.groups := rfl
@[simp] theorem State.openFrames_due (old : Table Port 16) : (s.openFrames old).due = s.due := rfl
@[simp] theorem State.openFrames_csu (old : Table Port 16) : (s.openFrames old).csu = s.csu := rfl
@[simp] theorem State.openFrames_cvb (old : Table Port 16) : (s.openFrames old).cvb = s.cvb := rfl
@[simp] theorem State.openFrames_cbi (old : Table Port 16) : (s.openFrames old).cbi = s.cbi := rfl
@[simp] theorem State.openFrames_evb (old : Table Port 16) : (s.openFrames old).evb = s.evb := rfl
@[simp] theorem State.openFrames_freeCount (old : Table Port 16) : (s.openFrames old).freeCount = s.freeCount := rfl

/-! ### beginFrame -/

@[simp] theorem State.beginFrame_pending (f : Frame) : (s.beginFrame f).pending = s.pending := rfl
@[simp] theorem State.beginFrame_now (f : Frame) : (s.beginFrame f).now = s.now := rfl
@[simp] theorem State.beginFrame_phase (f : Frame) : (s.beginFrame f).phase = s.phase := rfl
@[simp] theorem State.beginFrame_startingEnd (f : Frame) : (s.beginFrame f).startingEnd = s.startingEnd := rfl
@[simp] theorem State.beginFrame_pins (f : Frame) : (s.beginFrame f).pins = s.pins := rfl
@[simp] theorem State.beginFrame_clc (f : Frame) : (s.beginFrame f).clc = s.clc := rfl
@[simp] theorem State.beginFrame_rate (f : Frame) : (s.beginFrame f).rate = s.rate := rfl
@[simp] theorem State.beginFrame_rateNow (f : Frame) :
    (s.beginFrame f).rateNow = s.rate := rfl
@[simp] theorem State.beginFrame_geo (f : Frame) : (s.beginFrame f).geo = s.geo := rfl
@[simp] theorem State.beginFrame_held (f : Frame) : (s.beginFrame f).held = s.held := rfl
@[simp] theorem State.beginFrame_tiles (f : Frame) : (s.beginFrame f).tiles = s.tiles := rfl
@[simp] theorem State.beginFrame_ports (f : Frame) : (s.beginFrame f).ports = s.ports := rfl
@[simp] theorem State.beginFrame_frames (f : Frame) : (s.beginFrame f).frames = s.frames := rfl
@[simp] theorem State.beginFrame_cmp (f : Frame) : (s.beginFrame f).cmp = s.cmp := rfl
@[simp] theorem State.beginFrame_links (f : Frame) : (s.beginFrame f).links = s.links := rfl
@[simp] theorem State.beginFrame_bg (f : Frame) : (s.beginFrame f).bg = s.bg := rfl
@[simp] theorem State.beginFrame_bgNow (f : Frame) :
    (s.beginFrame f).bgNow = s.bg := rfl
@[simp] theorem State.beginFrame_sdir (f : Frame) : (s.beginFrame f).sdir = s.sdir := rfl
@[simp] theorem State.beginFrame_store (f : Frame) : (s.beginFrame f).store = s.store := rfl
@[simp] theorem State.beginFrame_storeEpoch (f : Frame) : (s.beginFrame f).storeEpoch = s.storeEpoch := rfl
@[simp] theorem State.beginFrame_fsc (f : Frame) : (s.beginFrame f).fsc = s.fsc := rfl
@[simp] theorem State.beginFrame_ptab (f : Frame) : (s.beginFrame f).ptab = s.ptab := rfl
@[simp] theorem State.beginFrame_groups (f : Frame) : (s.beginFrame f).groups = s.groups := rfl
@[simp] theorem State.beginFrame_due (f : Frame) : (s.beginFrame f).due = s.due := rfl
@[simp] theorem State.beginFrame_csu (f : Frame) :
    (s.beginFrame f).csu = { s.csu with frame := f, boundaryAt := s.now } := rfl
@[simp] theorem State.beginFrame_cvb (f : Frame) : (s.beginFrame f).cvb = s.cvb := rfl
@[simp] theorem State.beginFrame_cbi (f : Frame) : (s.beginFrame f).cbi = s.cbi := rfl
@[simp] theorem State.beginFrame_evb (f : Frame) : (s.beginFrame f).evb = s.evb := rfl
@[simp] theorem State.beginFrame_freeCount (f : Frame) : (s.beginFrame f).freeCount = s.freeCount := rfl

/-! ### handOver -/

@[simp] theorem State.handOver_pending (flag : Bool) (f : Frame) : (s.handOver flag f).pending = s.pending := by simp [State.handOver]
@[simp] theorem State.handOver_now (flag : Bool) (f : Frame) : (s.handOver flag f).now = s.now := by simp [State.handOver]
@[simp] theorem State.handOver_phase (flag : Bool) (f : Frame) : (s.handOver flag f).phase = s.phase := by simp [State.handOver]
@[simp] theorem State.handOver_startingEnd (flag : Bool) (f : Frame) : (s.handOver flag f).startingEnd = s.startingEnd := by simp [State.handOver]
@[simp] theorem State.handOver_pins (flag : Bool) (f : Frame) : (s.handOver flag f).pins = s.pins := by simp [State.handOver]
@[simp] theorem State.handOver_clc (flag : Bool) (f : Frame) : (s.handOver flag f).clc = s.clc := by simp [State.handOver]
@[simp] theorem State.handOver_rate (flag : Bool) (f : Frame) : (s.handOver flag f).rate = s.rate := by simp [State.handOver]
@[simp] theorem State.handOver_rateNow (flag : Bool) (f : Frame) : (s.handOver flag f).rateNow = s.rateNow := by simp [State.handOver]
@[simp] theorem State.handOver_geo (flag : Bool) (f : Frame) : (s.handOver flag f).geo = s.geo := by simp [State.handOver]
@[simp] theorem State.handOver_held (flag : Bool) (f : Frame) : (s.handOver flag f).held = s.held := by simp [State.handOver]
@[simp] theorem State.handOver_tiles (flag : Bool) (f : Frame) : (s.handOver flag f).tiles = s.tiles := by simp [State.handOver]
@[simp] theorem State.handOver_ports (flag : Bool) (f : Frame) : (s.handOver flag f).ports = s.ports := by simp [State.handOver]
@[simp] theorem State.handOver_frames (flag : Bool) (f : Frame) : (s.handOver flag f).frames = s.frames := by simp [State.handOver]
@[simp] theorem State.handOver_cmp (flag : Bool) (f : Frame) : (s.handOver flag f).cmp = s.cmp := by simp [State.handOver]
@[simp] theorem State.handOver_links (flag : Bool) (f : Frame) : (s.handOver flag f).links = s.links := by simp [State.handOver]
@[simp] theorem State.handOver_bg (flag : Bool) (f : Frame) : (s.handOver flag f).bg = s.bg := by simp [State.handOver]
@[simp] theorem State.handOver_bgNow (flag : Bool) (f : Frame) : (s.handOver flag f).bgNow = s.bgNow := by simp [State.handOver]
@[simp] theorem State.handOver_sdir (flag : Bool) (f : Frame) : (s.handOver flag f).sdir = s.sdir := by simp [State.handOver]
@[simp] theorem State.handOver_store (flag : Bool) (f : Frame) : (s.handOver flag f).store = s.store := by simp [State.handOver]
@[simp] theorem State.handOver_storeEpoch (flag : Bool) (f : Frame) : (s.handOver flag f).storeEpoch = s.storeEpoch := by simp [State.handOver]
@[simp] theorem State.handOver_fsc (flag : Bool) (f : Frame) : (s.handOver flag f).fsc = s.fsc := by simp [State.handOver]
@[simp] theorem State.handOver_ptab (flag : Bool) (f : Frame) : (s.handOver flag f).ptab = s.ptab := by simp [State.handOver]
@[simp] theorem State.handOver_groups (flag : Bool) (f : Frame) : (s.handOver flag f).groups = s.groups := by simp [State.handOver]
@[simp] theorem State.handOver_due (flag : Bool) (f : Frame) : (s.handOver flag f).due = s.due := by simp [State.handOver]
@[simp] theorem State.handOver_csu (flag : Bool) (f : Frame) :
    (s.handOver flag f).csu = { s.csu with blackoutFlag := flag } := by simp [State.handOver]
@[simp] theorem State.handOver_cvb (flag : Bool) (f : Frame) : (s.handOver flag f).cvb = s.cvb := by simp [State.handOver]
@[simp] theorem State.handOver_cbi (flag : Bool) (f : Frame) : (s.handOver flag f).cbi = s.cbi := by simp [State.handOver]
@[simp] theorem State.handOver_freeCount (flag : Bool) (f : Frame) : (s.handOver flag f).freeCount = s.freeCount := by simp [State.handOver]

/-! ### evaluateWhere -/

@[simp] theorem State.evaluateWhere_pending (sel : Selection) (f : Frame) : (s.evaluateWhere sel f).pending = s.pending := by simp [State.evaluateWhere]
@[simp] theorem State.evaluateWhere_now (sel : Selection) (f : Frame) : (s.evaluateWhere sel f).now = s.now := by simp [State.evaluateWhere]
@[simp] theorem State.evaluateWhere_phase (sel : Selection) (f : Frame) : (s.evaluateWhere sel f).phase = s.phase := by simp [State.evaluateWhere]
@[simp] theorem State.evaluateWhere_startingEnd (sel : Selection) (f : Frame) : (s.evaluateWhere sel f).startingEnd = s.startingEnd := by simp [State.evaluateWhere]
@[simp] theorem State.evaluateWhere_pins (sel : Selection) (f : Frame) : (s.evaluateWhere sel f).pins = s.pins := by simp [State.evaluateWhere]
@[simp] theorem State.evaluateWhere_clc (sel : Selection) (f : Frame) : (s.evaluateWhere sel f).clc = s.clc := by simp [State.evaluateWhere]
@[simp] theorem State.evaluateWhere_rate (sel : Selection) (f : Frame) : (s.evaluateWhere sel f).rate = s.rate := by simp [State.evaluateWhere]
@[simp] theorem State.evaluateWhere_rateNow (sel : Selection) (f : Frame) : (s.evaluateWhere sel f).rateNow = s.rateNow := by simp [State.evaluateWhere]
@[simp] theorem State.evaluateWhere_geo (sel : Selection) (f : Frame) : (s.evaluateWhere sel f).geo = s.geo := by simp [State.evaluateWhere]
@[simp] theorem State.evaluateWhere_held (sel : Selection) (f : Frame) : (s.evaluateWhere sel f).held = s.held := by simp [State.evaluateWhere]
@[simp] theorem State.evaluateWhere_tiles (sel : Selection) (f : Frame) : (s.evaluateWhere sel f).tiles = s.tiles := by simp [State.evaluateWhere]
@[simp] theorem State.evaluateWhere_ports (sel : Selection) (f : Frame) : (s.evaluateWhere sel f).ports = s.ports := by simp [State.evaluateWhere]
@[simp] theorem State.evaluateWhere_frames (sel : Selection) (f : Frame) : (s.evaluateWhere sel f).frames = s.frames := by simp [State.evaluateWhere]
@[simp] theorem State.evaluateWhere_cmp (sel : Selection) (f : Frame) : (s.evaluateWhere sel f).cmp = s.cmp := by simp [State.evaluateWhere]
@[simp] theorem State.evaluateWhere_links (sel : Selection) (f : Frame) : (s.evaluateWhere sel f).links = s.links := by simp [State.evaluateWhere]
@[simp] theorem State.evaluateWhere_bg (sel : Selection) (f : Frame) : (s.evaluateWhere sel f).bg = s.bg := by simp [State.evaluateWhere]
@[simp] theorem State.evaluateWhere_bgNow (sel : Selection) (f : Frame) : (s.evaluateWhere sel f).bgNow = s.bgNow := by simp [State.evaluateWhere]
@[simp] theorem State.evaluateWhere_store (sel : Selection) (f : Frame) : (s.evaluateWhere sel f).store = s.store := by simp [State.evaluateWhere]
@[simp] theorem State.evaluateWhere_storeEpoch (sel : Selection) (f : Frame) : (s.evaluateWhere sel f).storeEpoch = s.storeEpoch := by simp [State.evaluateWhere]
@[simp] theorem State.evaluateWhere_fsc (sel : Selection) (f : Frame) : (s.evaluateWhere sel f).fsc = s.fsc := by simp [State.evaluateWhere]
@[simp] theorem State.evaluateWhere_ptab (sel : Selection) (f : Frame) :
    (s.evaluateWhere sel f).ptab = s.ptab.mapIdx fun i r => (evaluationOf sel f i r).1 := by simp [State.evaluateWhere]
@[simp] theorem State.evaluateWhere_groups (sel : Selection) (f : Frame) : (s.evaluateWhere sel f).groups = s.groups := by simp [State.evaluateWhere]
@[simp] theorem State.evaluateWhere_due (sel : Selection) (f : Frame) : (s.evaluateWhere sel f).due = s.due := by simp [State.evaluateWhere]
@[simp] theorem State.evaluateWhere_csu (sel : Selection) (f : Frame) : (s.evaluateWhere sel f).csu = s.csu := by simp [State.evaluateWhere]
@[simp] theorem State.evaluateWhere_cvb (sel : Selection) (f : Frame) :
    (s.evaluateWhere sel f).cvb = s.coverageAfter sel f := by simp [State.evaluateWhere]
@[simp] theorem State.evaluateWhere_cbi (sel : Selection) (f : Frame) : (s.evaluateWhere sel f).cbi = s.cbi := by simp [State.evaluateWhere]
@[simp] theorem State.evaluateWhere_freeCount (sel : Selection) (f : Frame) : (s.evaluateWhere sel f).freeCount = s.freeCount := by simp [State.evaluateWhere]

/-! ### nominate -/

@[simp] theorem State.nominate_pending (g : GroupId) (f : Frame) : (s.nominate g f).pending = s.pending := by simp [State.nominate]
@[simp] theorem State.nominate_now (g : GroupId) (f : Frame) : (s.nominate g f).now = s.now := by simp [State.nominate]
@[simp] theorem State.nominate_phase (g : GroupId) (f : Frame) : (s.nominate g f).phase = s.phase := by simp [State.nominate]
@[simp] theorem State.nominate_startingEnd (g : GroupId) (f : Frame) : (s.nominate g f).startingEnd = s.startingEnd := by simp [State.nominate]
@[simp] theorem State.nominate_pins (g : GroupId) (f : Frame) : (s.nominate g f).pins = s.pins := by simp [State.nominate]
@[simp] theorem State.nominate_clc (g : GroupId) (f : Frame) : (s.nominate g f).clc = s.clc := by simp [State.nominate]
@[simp] theorem State.nominate_rate (g : GroupId) (f : Frame) : (s.nominate g f).rate = s.rate := by simp [State.nominate]
@[simp] theorem State.nominate_rateNow (g : GroupId) (f : Frame) : (s.nominate g f).rateNow = s.rateNow := by simp [State.nominate]
@[simp] theorem State.nominate_geo (g : GroupId) (f : Frame) : (s.nominate g f).geo = s.geo := by simp [State.nominate]
@[simp] theorem State.nominate_held (g : GroupId) (f : Frame) : (s.nominate g f).held = s.held := by simp [State.nominate]
@[simp] theorem State.nominate_tiles (g : GroupId) (f : Frame) : (s.nominate g f).tiles = s.tiles := by simp [State.nominate]
@[simp] theorem State.nominate_ports (g : GroupId) (f : Frame) : (s.nominate g f).ports = s.ports := by simp [State.nominate]
@[simp] theorem State.nominate_frames (g : GroupId) (f : Frame) : (s.nominate g f).frames = s.frames := by simp [State.nominate]
@[simp] theorem State.nominate_cmp (g : GroupId) (f : Frame) : (s.nominate g f).cmp = s.cmp := by simp [State.nominate]
@[simp] theorem State.nominate_links (g : GroupId) (f : Frame) : (s.nominate g f).links = s.links := by simp [State.nominate]
@[simp] theorem State.nominate_bg (g : GroupId) (f : Frame) : (s.nominate g f).bg = s.bg := by simp [State.nominate]
@[simp] theorem State.nominate_bgNow (g : GroupId) (f : Frame) : (s.nominate g f).bgNow = s.bgNow := by simp [State.nominate]
@[simp] theorem State.nominate_sdir (g : GroupId) (f : Frame) : (s.nominate g f).sdir = s.sdir := by simp [State.nominate]
@[simp] theorem State.nominate_store (g : GroupId) (f : Frame) : (s.nominate g f).store = s.store := by simp [State.nominate]
@[simp] theorem State.nominate_storeEpoch (g : GroupId) (f : Frame) : (s.nominate g f).storeEpoch = s.storeEpoch := by simp [State.nominate]
@[simp] theorem State.nominate_fsc (g : GroupId) (f : Frame) : (s.nominate g f).fsc = s.fsc := by simp [State.nominate]
@[simp] theorem State.nominate_ptab (g : GroupId) (f : Frame) : (s.nominate g f).ptab = s.ptab := by simp [State.nominate]
@[simp] theorem State.nominate_groups (g : GroupId) (f : Frame) :
    (s.nominate g f).groups = s.groups.modify g fun r => { r with state := .nominated f } := by simp [State.nominate]
@[simp] theorem State.nominate_due (g : GroupId) (f : Frame) : (s.nominate g f).due = s.due := by simp [State.nominate]
@[simp] theorem State.nominate_csu (g : GroupId) (f : Frame) :
    (s.nominate g f).csu = { s.csu with readinessGiven := false } := by simp [State.nominate]
@[simp] theorem State.nominate_cvb (g : GroupId) (f : Frame) :
    (s.nominate g f).cvb = s.cvb.begin s.held g := by simp [State.nominate]
@[simp] theorem State.nominate_cbi (g : GroupId) (f : Frame) : (s.nominate g f).cbi = s.cbi := by simp [State.nominate]
@[simp] theorem State.nominate_evb (g : GroupId) (f : Frame) : (s.nominate g f).evb = s.evb := by simp [State.nominate]
@[simp] theorem State.nominate_freeCount (g : GroupId) (f : Frame) : (s.nominate g f).freeCount = s.freeCount := by simp [State.nominate]

/-! ### cutRecords -/

@[simp] theorem State.cutRecords_pending (g : GroupId) (f : Frame) : (s.cutRecords g f).pending = s.pending := by simp [State.cutRecords]
@[simp] theorem State.cutRecords_now (g : GroupId) (f : Frame) : (s.cutRecords g f).now = s.now := by simp [State.cutRecords]
@[simp] theorem State.cutRecords_phase (g : GroupId) (f : Frame) : (s.cutRecords g f).phase = s.phase := by simp [State.cutRecords]
@[simp] theorem State.cutRecords_startingEnd (g : GroupId) (f : Frame) : (s.cutRecords g f).startingEnd = s.startingEnd := by simp [State.cutRecords]
@[simp] theorem State.cutRecords_pins (g : GroupId) (f : Frame) : (s.cutRecords g f).pins = s.pins := by simp [State.cutRecords]
@[simp] theorem State.cutRecords_clc (g : GroupId) (f : Frame) : (s.cutRecords g f).clc = s.clc := by simp [State.cutRecords]
@[simp] theorem State.cutRecords_rate (g : GroupId) (f : Frame) : (s.cutRecords g f).rate = s.rate := by simp [State.cutRecords]
@[simp] theorem State.cutRecords_rateNow (g : GroupId) (f : Frame) : (s.cutRecords g f).rateNow = s.rateNow := by simp [State.cutRecords]
@[simp] theorem State.cutRecords_geo (g : GroupId) (f : Frame) : (s.cutRecords g f).geo = s.geo := by simp [State.cutRecords]
@[simp] theorem State.cutRecords_held (g : GroupId) (f : Frame) : (s.cutRecords g f).held = s.held := by simp [State.cutRecords]
@[simp] theorem State.cutRecords_tiles (g : GroupId) (f : Frame) : (s.cutRecords g f).tiles = s.tiles := by simp [State.cutRecords]
@[simp] theorem State.cutRecords_ports (g : GroupId) (f : Frame) : (s.cutRecords g f).ports = s.ports := by simp [State.cutRecords]
@[simp] theorem State.cutRecords_frames (g : GroupId) (f : Frame) : (s.cutRecords g f).frames = s.frames := by simp [State.cutRecords]
@[simp] theorem State.cutRecords_cmp (g : GroupId) (f : Frame) : (s.cutRecords g f).cmp = s.cmp := by simp [State.cutRecords]
@[simp] theorem State.cutRecords_links (g : GroupId) (f : Frame) : (s.cutRecords g f).links = s.links := by simp [State.cutRecords]
@[simp] theorem State.cutRecords_bg (g : GroupId) (f : Frame) : (s.cutRecords g f).bg = s.bg := by simp [State.cutRecords]
@[simp] theorem State.cutRecords_bgNow (g : GroupId) (f : Frame) : (s.cutRecords g f).bgNow = s.bgNow := by simp [State.cutRecords]
@[simp] theorem State.cutRecords_store (g : GroupId) (f : Frame) : (s.cutRecords g f).store = s.store := by simp [State.cutRecords]
@[simp] theorem State.cutRecords_storeEpoch (g : GroupId) (f : Frame) : (s.cutRecords g f).storeEpoch = s.storeEpoch := by simp [State.cutRecords]
@[simp] theorem State.cutRecords_fsc (g : GroupId) (f : Frame) : (s.cutRecords g f).fsc = s.fsc := by simp [State.cutRecords]
@[simp] theorem State.cutRecords_ptab (g : GroupId) (f : Frame) :
    (s.cutRecords g f).ptab = s.ptab.mapIdx fun _ r => (r.cutAt g f).1 := by simp [State.cutRecords]
@[simp] theorem State.cutRecords_groups (g : GroupId) (f : Frame) :
    (s.cutRecords g f).groups = s.groups.modify g (GroupRec.afterCut f) := by simp [State.cutRecords]
@[simp] theorem State.cutRecords_due (g : GroupId) (f : Frame) : (s.cutRecords g f).due = s.due := by simp [State.cutRecords]
@[simp] theorem State.cutRecords_csu (g : GroupId) (f : Frame) :
    (s.cutRecords g f).csu = s.csu.afterCut g f := by simp [State.cutRecords]
@[simp] theorem State.cutRecords_cvb (g : GroupId) (f : Frame) : (s.cutRecords g f).cvb = s.cvb := by simp [State.cutRecords]
@[simp] theorem State.cutRecords_cbi (g : GroupId) (f : Frame) : (s.cutRecords g f).cbi = s.cbi := by simp [State.cutRecords]
@[simp] theorem State.cutRecords_evb (g : GroupId) (f : Frame) : (s.cutRecords g f).evb = s.evb := by simp [State.cutRecords]
@[simp] theorem State.cutRecords_freeCount (g : GroupId) (f : Frame) : (s.cutRecords g f).freeCount = s.freeCount := by simp [State.cutRecords]

/-! ### executeCut -/

@[simp] theorem State.executeCut_pending (g : GroupId) (f : Frame) : (s.executeCut g f).pending = s.pending := by simp [State.executeCut]
@[simp] theorem State.executeCut_now (g : GroupId) (f : Frame) : (s.executeCut g f).now = s.now := by simp [State.executeCut]
@[simp] theorem State.executeCut_phase (g : GroupId) (f : Frame) : (s.executeCut g f).phase = s.phase := by simp [State.executeCut]
@[simp] theorem State.executeCut_startingEnd (g : GroupId) (f : Frame) : (s.executeCut g f).startingEnd = s.startingEnd := by simp [State.executeCut]
@[simp] theorem State.executeCut_pins (g : GroupId) (f : Frame) : (s.executeCut g f).pins = s.pins := by simp [State.executeCut]
@[simp] theorem State.executeCut_clc (g : GroupId) (f : Frame) : (s.executeCut g f).clc = s.clc := by simp [State.executeCut]
@[simp] theorem State.executeCut_rate (g : GroupId) (f : Frame) : (s.executeCut g f).rate = s.rate := by simp [State.executeCut]
@[simp] theorem State.executeCut_rateNow (g : GroupId) (f : Frame) : (s.executeCut g f).rateNow = s.rateNow := by simp [State.executeCut]
@[simp] theorem State.executeCut_geo (g : GroupId) (f : Frame) : (s.executeCut g f).geo = s.geo := by simp [State.executeCut]
@[simp] theorem State.executeCut_held (g : GroupId) (f : Frame) : (s.executeCut g f).held = s.held := by simp [State.executeCut]
@[simp] theorem State.executeCut_tiles (g : GroupId) (f : Frame) : (s.executeCut g f).tiles = s.tiles := by simp [State.executeCut]
@[simp] theorem State.executeCut_ports (g : GroupId) (f : Frame) : (s.executeCut g f).ports = s.ports := by simp [State.executeCut]
@[simp] theorem State.executeCut_frames (g : GroupId) (f : Frame) : (s.executeCut g f).frames = s.frames := by simp [State.executeCut]
@[simp] theorem State.executeCut_cmp (g : GroupId) (f : Frame) : (s.executeCut g f).cmp = s.cmp := by simp [State.executeCut]
@[simp] theorem State.executeCut_links (g : GroupId) (f : Frame) : (s.executeCut g f).links = s.links := by simp [State.executeCut]
@[simp] theorem State.executeCut_bg (g : GroupId) (f : Frame) : (s.executeCut g f).bg = s.bg := by simp [State.executeCut]
@[simp] theorem State.executeCut_bgNow (g : GroupId) (f : Frame) : (s.executeCut g f).bgNow = s.bgNow := by simp [State.executeCut]
@[simp] theorem State.executeCut_store (g : GroupId) (f : Frame) : (s.executeCut g f).store = s.store := by simp [State.executeCut]
@[simp] theorem State.executeCut_storeEpoch (g : GroupId) (f : Frame) : (s.executeCut g f).storeEpoch = s.storeEpoch := by simp [State.executeCut]
@[simp] theorem State.executeCut_fsc (g : GroupId) (f : Frame) : (s.executeCut g f).fsc = s.fsc := by simp [State.executeCut]
@[simp] theorem State.executeCut_ptab (g : GroupId) (f : Frame) :
    (s.executeCut g f).ptab = s.ptab.mapIdx fun _ r => (r.cutAt g f).1 := by simp [State.executeCut]
@[simp] theorem State.executeCut_groups (g : GroupId) (f : Frame) :
    (s.executeCut g f).groups = s.groups.modify g (GroupRec.afterCut f) := by simp [State.executeCut]
@[simp] theorem State.executeCut_due (g : GroupId) (f : Frame) : (s.executeCut g f).due = s.due := by simp [State.executeCut]
@[simp] theorem State.executeCut_cvb (g : GroupId) (f : Frame) :
    (s.executeCut g f).cvb = s.listsAfterCut g f := by simp [State.executeCut]
@[simp] theorem State.executeCut_cbi (g : GroupId) (f : Frame) : (s.executeCut g f).cbi = s.cbi := by simp [State.executeCut]
@[simp] theorem State.executeCut_freeCount (g : GroupId) (f : Frame) : (s.executeCut g f).freeCount = s.freeCount := by simp [State.executeCut]

/-! ### executeAbandon -/

@[simp] theorem State.executeAbandon_pending (g : GroupId) : (s.executeAbandon g).pending = s.pending := by simp [State.executeAbandon]
@[simp] theorem State.executeAbandon_now (g : GroupId) : (s.executeAbandon g).now = s.now := by simp [State.executeAbandon]
@[simp] theorem State.executeAbandon_phase (g : GroupId) : (s.executeAbandon g).phase = s.phase := by simp [State.executeAbandon]
@[simp] theorem State.executeAbandon_startingEnd (g : GroupId) : (s.executeAbandon g).startingEnd = s.startingEnd := by simp [State.executeAbandon]
@[simp] theorem State.executeAbandon_pins (g : GroupId) : (s.executeAbandon g).pins = s.pins := by simp [State.executeAbandon]
@[simp] theorem State.executeAbandon_clc (g : GroupId) : (s.executeAbandon g).clc = s.clc := by simp [State.executeAbandon]
@[simp] theorem State.executeAbandon_rate (g : GroupId) : (s.executeAbandon g).rate = s.rate := by simp [State.executeAbandon]
@[simp] theorem State.executeAbandon_rateNow (g : GroupId) : (s.executeAbandon g).rateNow = s.rateNow := by simp [State.executeAbandon]
@[simp] theorem State.executeAbandon_geo (g : GroupId) : (s.executeAbandon g).geo = s.geo := by simp [State.executeAbandon]
@[simp] theorem State.executeAbandon_held (g : GroupId) : (s.executeAbandon g).held = s.held := by simp [State.executeAbandon]
@[simp] theorem State.executeAbandon_tiles (g : GroupId) : (s.executeAbandon g).tiles = s.tiles := by simp [State.executeAbandon]
@[simp] theorem State.executeAbandon_ports (g : GroupId) : (s.executeAbandon g).ports = s.ports := by simp [State.executeAbandon]
@[simp] theorem State.executeAbandon_frames (g : GroupId) : (s.executeAbandon g).frames = s.frames := by simp [State.executeAbandon]
@[simp] theorem State.executeAbandon_cmp (g : GroupId) : (s.executeAbandon g).cmp = s.cmp := by simp [State.executeAbandon]
@[simp] theorem State.executeAbandon_links (g : GroupId) : (s.executeAbandon g).links = s.links := by simp [State.executeAbandon]
@[simp] theorem State.executeAbandon_bg (g : GroupId) : (s.executeAbandon g).bg = s.bg := by simp [State.executeAbandon]
@[simp] theorem State.executeAbandon_bgNow (g : GroupId) : (s.executeAbandon g).bgNow = s.bgNow := by simp [State.executeAbandon]
@[simp] theorem State.executeAbandon_sdir (g : GroupId) : (s.executeAbandon g).sdir = s.sdir := by simp [State.executeAbandon]
@[simp] theorem State.executeAbandon_store (g : GroupId) : (s.executeAbandon g).store = s.store := by simp [State.executeAbandon]
@[simp] theorem State.executeAbandon_storeEpoch (g : GroupId) : (s.executeAbandon g).storeEpoch = s.storeEpoch := by simp [State.executeAbandon]
@[simp] theorem State.executeAbandon_fsc (g : GroupId) : (s.executeAbandon g).fsc = s.fsc := by simp [State.executeAbandon]
@[simp] theorem State.executeAbandon_ptab (g : GroupId) : (s.executeAbandon g).ptab = s.ptab := by simp [State.executeAbandon]
@[simp] theorem State.executeAbandon_groups (g : GroupId) :
    (s.executeAbandon g).groups = s.groups.modify g GroupRec.afterAbandon := by simp [State.executeAbandon]
@[simp] theorem State.executeAbandon_due (g : GroupId) : (s.executeAbandon g).due = s.due := by simp [State.executeAbandon]
@[simp] theorem State.executeAbandon_cvb (g : GroupId) :
    (s.executeAbandon g).cvb = s.cvb.dropFor g := by simp [State.executeAbandon]
@[simp] theorem State.executeAbandon_cbi (g : GroupId) : (s.executeAbandon g).cbi = s.cbi := by simp [State.executeAbandon]
@[simp] theorem State.executeAbandon_freeCount (g : GroupId) : (s.executeAbandon g).freeCount = s.freeCount := by simp [State.executeAbandon]

/-! ### desync -/

@[simp] theorem State.desync_pending (reason : DesyncReason) (w : SyncWord) (gs : List GroupId) : (s.desync reason w gs).pending = s.pending := by simp [State.desync]
@[simp] theorem State.desync_now (reason : DesyncReason) (w : SyncWord) (gs : List GroupId) : (s.desync reason w gs).now = s.now := by simp [State.desync]
@[simp] theorem State.desync_phase (reason : DesyncReason) (w : SyncWord) (gs : List GroupId) : (s.desync reason w gs).phase = s.phase := by simp [State.desync]
@[simp] theorem State.desync_startingEnd (reason : DesyncReason) (w : SyncWord) (gs : List GroupId) : (s.desync reason w gs).startingEnd = s.startingEnd := by simp [State.desync]
@[simp] theorem State.desync_pins (reason : DesyncReason) (w : SyncWord) (gs : List GroupId) : (s.desync reason w gs).pins = s.pins := by simp [State.desync]
@[simp] theorem State.desync_clc (reason : DesyncReason) (w : SyncWord) (gs : List GroupId) : (s.desync reason w gs).clc = s.clc := by simp [State.desync]
@[simp] theorem State.desync_rate (reason : DesyncReason) (w : SyncWord) (gs : List GroupId) : (s.desync reason w gs).rate = s.rate := by simp [State.desync]
@[simp] theorem State.desync_rateNow (reason : DesyncReason) (w : SyncWord) (gs : List GroupId) : (s.desync reason w gs).rateNow = s.rateNow := by simp [State.desync]
@[simp] theorem State.desync_geo (reason : DesyncReason) (w : SyncWord) (gs : List GroupId) : (s.desync reason w gs).geo = s.geo := by simp [State.desync]
@[simp] theorem State.desync_held (reason : DesyncReason) (w : SyncWord) (gs : List GroupId) : (s.desync reason w gs).held = s.held := by simp [State.desync]
@[simp] theorem State.desync_tiles (reason : DesyncReason) (w : SyncWord) (gs : List GroupId) : (s.desync reason w gs).tiles = s.tiles := by simp [State.desync]
@[simp] theorem State.desync_ports (reason : DesyncReason) (w : SyncWord) (gs : List GroupId) : (s.desync reason w gs).ports = s.ports := by simp [State.desync]
@[simp] theorem State.desync_frames (reason : DesyncReason) (w : SyncWord) (gs : List GroupId) : (s.desync reason w gs).frames = s.frames := by simp [State.desync]
@[simp] theorem State.desync_cmp (reason : DesyncReason) (w : SyncWord) (gs : List GroupId) : (s.desync reason w gs).cmp = s.cmp := by simp [State.desync]
@[simp] theorem State.desync_links (reason : DesyncReason) (w : SyncWord) (gs : List GroupId) : (s.desync reason w gs).links = s.links := by simp [State.desync]
@[simp] theorem State.desync_bg (reason : DesyncReason) (w : SyncWord) (gs : List GroupId) : (s.desync reason w gs).bg = s.bg := by simp [State.desync]
@[simp] theorem State.desync_bgNow (reason : DesyncReason) (w : SyncWord) (gs : List GroupId) : (s.desync reason w gs).bgNow = s.bgNow := by simp [State.desync]
@[simp] theorem State.desync_sdir (reason : DesyncReason) (w : SyncWord) (gs : List GroupId) : (s.desync reason w gs).sdir = s.sdir := by simp [State.desync]
@[simp] theorem State.desync_store (reason : DesyncReason) (w : SyncWord) (gs : List GroupId) : (s.desync reason w gs).store = s.store := by simp [State.desync]
@[simp] theorem State.desync_storeEpoch (reason : DesyncReason) (w : SyncWord) (gs : List GroupId) : (s.desync reason w gs).storeEpoch = s.storeEpoch := by simp [State.desync]
@[simp] theorem State.desync_fsc (reason : DesyncReason) (w : SyncWord) (gs : List GroupId) : (s.desync reason w gs).fsc = s.fsc := by simp [State.desync]
@[simp] theorem State.desync_ptab (reason : DesyncReason) (w : SyncWord) (gs : List GroupId) : (s.desync reason w gs).ptab = s.ptab := by simp [State.desync]
@[simp] theorem State.desync_groups (reason : DesyncReason) (w : SyncWord) (gs : List GroupId) : (s.desync reason w gs).groups = s.groups := by simp [State.desync]
@[simp] theorem State.desync_due (reason : DesyncReason) (w : SyncWord) (gs : List GroupId) : (s.desync reason w gs).due = s.due := by simp [State.desync]
@[simp] theorem State.desync_csu (reason : DesyncReason) (w : SyncWord) (gs : List GroupId) : (s.desync reason w gs).csu = s.csu := by simp [State.desync]
@[simp] theorem State.desync_cvb (reason : DesyncReason) (w : SyncWord) (gs : List GroupId) : (s.desync reason w gs).cvb = s.cvb := by simp [State.desync]
@[simp] theorem State.desync_cbi (reason : DesyncReason) (w : SyncWord) (gs : List GroupId) : (s.desync reason w gs).cbi = s.cbi := by simp [State.desync]
@[simp] theorem State.desync_freeCount (reason : DesyncReason) (w : SyncWord) (gs : List GroupId) : (s.desync reason w gs).freeCount = s.freeCount := by simp [State.desync]

/-! ### adoptSequence -/

@[simp] theorem State.adoptSequence_pending (w : SyncWord) : (s.adoptSequence w).pending = s.pending := rfl
@[simp] theorem State.adoptSequence_now (w : SyncWord) : (s.adoptSequence w).now = s.now := rfl
@[simp] theorem State.adoptSequence_phase (w : SyncWord) : (s.adoptSequence w).phase = s.phase := rfl
@[simp] theorem State.adoptSequence_startingEnd (w : SyncWord) : (s.adoptSequence w).startingEnd = s.startingEnd := rfl
@[simp] theorem State.adoptSequence_pins (w : SyncWord) : (s.adoptSequence w).pins = s.pins := rfl
@[simp] theorem State.adoptSequence_clc (w : SyncWord) : (s.adoptSequence w).clc = s.clc := rfl
@[simp] theorem State.adoptSequence_rate (w : SyncWord) : (s.adoptSequence w).rate = s.rate := rfl
@[simp] theorem State.adoptSequence_rateNow (w : SyncWord) : (s.adoptSequence w).rateNow = s.rateNow := rfl
@[simp] theorem State.adoptSequence_geo (w : SyncWord) : (s.adoptSequence w).geo = s.geo := rfl
@[simp] theorem State.adoptSequence_held (w : SyncWord) : (s.adoptSequence w).held = s.held := rfl
@[simp] theorem State.adoptSequence_tiles (w : SyncWord) : (s.adoptSequence w).tiles = s.tiles := rfl
@[simp] theorem State.adoptSequence_ports (w : SyncWord) : (s.adoptSequence w).ports = s.ports := rfl
@[simp] theorem State.adoptSequence_frames (w : SyncWord) : (s.adoptSequence w).frames = s.frames := rfl
@[simp] theorem State.adoptSequence_cmp (w : SyncWord) : (s.adoptSequence w).cmp = s.cmp := rfl
@[simp] theorem State.adoptSequence_links (w : SyncWord) : (s.adoptSequence w).links = s.links := rfl
@[simp] theorem State.adoptSequence_bg (w : SyncWord) : (s.adoptSequence w).bg = s.bg := rfl
@[simp] theorem State.adoptSequence_bgNow (w : SyncWord) : (s.adoptSequence w).bgNow = s.bgNow := rfl
@[simp] theorem State.adoptSequence_sdir (w : SyncWord) : (s.adoptSequence w).sdir = s.sdir := rfl
@[simp] theorem State.adoptSequence_store (w : SyncWord) : (s.adoptSequence w).store = s.store := rfl
@[simp] theorem State.adoptSequence_storeEpoch (w : SyncWord) : (s.adoptSequence w).storeEpoch = s.storeEpoch := rfl
@[simp] theorem State.adoptSequence_fsc (w : SyncWord) : (s.adoptSequence w).fsc = s.fsc := rfl
@[simp] theorem State.adoptSequence_ptab (w : SyncWord) : (s.adoptSequence w).ptab = s.ptab := rfl
@[simp] theorem State.adoptSequence_groups (w : SyncWord) : (s.adoptSequence w).groups = s.groups := rfl
@[simp] theorem State.adoptSequence_due (w : SyncWord) : (s.adoptSequence w).due = s.due := rfl
@[simp] theorem State.adoptSequence_csu (w : SyncWord) :
    (s.adoptSequence w).csu = { s.csu with cutSequence := w.cutSequence, lastCut := w.lastCut } := rfl
@[simp] theorem State.adoptSequence_cvb (w : SyncWord) : (s.adoptSequence w).cvb = s.cvb := rfl
@[simp] theorem State.adoptSequence_cbi (w : SyncWord) : (s.adoptSequence w).cbi = s.cbi := rfl
@[simp] theorem State.adoptSequence_evb (w : SyncWord) : (s.adoptSequence w).evb = s.evb := rfl
@[simp] theorem State.adoptSequence_freeCount (w : SyncWord) : (s.adoptSequence w).freeCount = s.freeCount := rfl

/-! ### restartLossTimer -/

@[simp] theorem State.restartLossTimer_pending : (s.restartLossTimer).pending = s.pending := rfl
@[simp] theorem State.restartLossTimer_now : (s.restartLossTimer).now = s.now := rfl
@[simp] theorem State.restartLossTimer_phase : (s.restartLossTimer).phase = s.phase := rfl
@[simp] theorem State.restartLossTimer_startingEnd : (s.restartLossTimer).startingEnd = s.startingEnd := rfl
@[simp] theorem State.restartLossTimer_pins : (s.restartLossTimer).pins = s.pins := rfl
@[simp] theorem State.restartLossTimer_clc : (s.restartLossTimer).clc = s.clc := rfl
@[simp] theorem State.restartLossTimer_rate : (s.restartLossTimer).rate = s.rate := rfl
@[simp] theorem State.restartLossTimer_rateNow : (s.restartLossTimer).rateNow = s.rateNow := rfl
@[simp] theorem State.restartLossTimer_geo : (s.restartLossTimer).geo = s.geo := rfl
@[simp] theorem State.restartLossTimer_held : (s.restartLossTimer).held = s.held := rfl
@[simp] theorem State.restartLossTimer_tiles : (s.restartLossTimer).tiles = s.tiles := rfl
@[simp] theorem State.restartLossTimer_ports : (s.restartLossTimer).ports = s.ports := rfl
@[simp] theorem State.restartLossTimer_frames : (s.restartLossTimer).frames = s.frames := rfl
@[simp] theorem State.restartLossTimer_cmp : (s.restartLossTimer).cmp = s.cmp := rfl
@[simp] theorem State.restartLossTimer_links : (s.restartLossTimer).links = s.links := rfl
@[simp] theorem State.restartLossTimer_bg : (s.restartLossTimer).bg = s.bg := rfl
@[simp] theorem State.restartLossTimer_bgNow : (s.restartLossTimer).bgNow = s.bgNow := rfl
@[simp] theorem State.restartLossTimer_sdir : (s.restartLossTimer).sdir = s.sdir := rfl
@[simp] theorem State.restartLossTimer_store : (s.restartLossTimer).store = s.store := rfl
@[simp] theorem State.restartLossTimer_storeEpoch : (s.restartLossTimer).storeEpoch = s.storeEpoch := rfl
@[simp] theorem State.restartLossTimer_fsc : (s.restartLossTimer).fsc = s.fsc := rfl
@[simp] theorem State.restartLossTimer_ptab : (s.restartLossTimer).ptab = s.ptab := rfl
@[simp] theorem State.restartLossTimer_groups : (s.restartLossTimer).groups = s.groups := rfl
@[simp] theorem State.restartLossTimer_due : (s.restartLossTimer).due = s.due := rfl
@[simp] theorem State.restartLossTimer_csu :
    (s.restartLossTimer).csu = { s.csu with lossTimer := some s.now } := rfl
@[simp] theorem State.restartLossTimer_cvb : (s.restartLossTimer).cvb = s.cvb := rfl
@[simp] theorem State.restartLossTimer_cbi : (s.restartLossTimer).cbi = s.cbi := rfl
@[simp] theorem State.restartLossTimer_evb : (s.restartLossTimer).evb = s.evb := rfl
@[simp] theorem State.restartLossTimer_freeCount : (s.restartLossTimer).freeCount = s.freeCount := rfl

/-! ### afterDecision -/

@[simp] theorem State.afterDecision_pending (f : Frame) (k : WordKind) : (s.afterDecision f k).pending = s.pending := rfl
@[simp] theorem State.afterDecision_now (f : Frame) (k : WordKind) : (s.afterDecision f k).now = s.now := rfl
@[simp] theorem State.afterDecision_phase (f : Frame) (k : WordKind) : (s.afterDecision f k).phase = s.phase := rfl
@[simp] theorem State.afterDecision_startingEnd (f : Frame) (k : WordKind) : (s.afterDecision f k).startingEnd = s.startingEnd := rfl
@[simp] theorem State.afterDecision_pins (f : Frame) (k : WordKind) : (s.afterDecision f k).pins = s.pins := rfl
@[simp] theorem State.afterDecision_clc (f : Frame) (k : WordKind) : (s.afterDecision f k).clc = s.clc := rfl
@[simp] theorem State.afterDecision_rate (f : Frame) (k : WordKind) : (s.afterDecision f k).rate = s.rate := rfl
@[simp] theorem State.afterDecision_rateNow (f : Frame) (k : WordKind) : (s.afterDecision f k).rateNow = s.rateNow := rfl
@[simp] theorem State.afterDecision_geo (f : Frame) (k : WordKind) : (s.afterDecision f k).geo = s.geo := rfl
@[simp] theorem State.afterDecision_held (f : Frame) (k : WordKind) : (s.afterDecision f k).held = s.held := rfl
@[simp] theorem State.afterDecision_tiles (f : Frame) (k : WordKind) : (s.afterDecision f k).tiles = s.tiles := rfl
@[simp] theorem State.afterDecision_ports (f : Frame) (k : WordKind) : (s.afterDecision f k).ports = s.ports := rfl
@[simp] theorem State.afterDecision_frames (f : Frame) (k : WordKind) : (s.afterDecision f k).frames = s.frames := rfl
@[simp] theorem State.afterDecision_cmp (f : Frame) (k : WordKind) : (s.afterDecision f k).cmp = s.cmp := rfl
@[simp] theorem State.afterDecision_links (f : Frame) (k : WordKind) : (s.afterDecision f k).links = s.links := rfl
@[simp] theorem State.afterDecision_bg (f : Frame) (k : WordKind) : (s.afterDecision f k).bg = s.bg := rfl
@[simp] theorem State.afterDecision_bgNow (f : Frame) (k : WordKind) : (s.afterDecision f k).bgNow = s.bgNow := rfl
@[simp] theorem State.afterDecision_sdir (f : Frame) (k : WordKind) : (s.afterDecision f k).sdir = s.sdir := rfl
@[simp] theorem State.afterDecision_store (f : Frame) (k : WordKind) : (s.afterDecision f k).store = s.store := rfl
@[simp] theorem State.afterDecision_storeEpoch (f : Frame) (k : WordKind) : (s.afterDecision f k).storeEpoch = s.storeEpoch := rfl
@[simp] theorem State.afterDecision_fsc (f : Frame) (k : WordKind) : (s.afterDecision f k).fsc = s.fsc := rfl
@[simp] theorem State.afterDecision_ptab (f : Frame) (k : WordKind) : (s.afterDecision f k).ptab = s.ptab := rfl
@[simp] theorem State.afterDecision_groups (f : Frame) (k : WordKind) : (s.afterDecision f k).groups = s.groups := rfl
@[simp] theorem State.afterDecision_cvb (f : Frame) (k : WordKind) : (s.afterDecision f k).cvb = s.cvb := rfl
@[simp] theorem State.afterDecision_cbi (f : Frame) (k : WordKind) : (s.afterDecision f k).cbi = s.cbi := rfl
@[simp] theorem State.afterDecision_evb (f : Frame) (k : WordKind) : (s.afterDecision f k).evb = s.evb := rfl
@[simp] theorem State.afterDecision_freeCount (f : Frame) (k : WordKind) : (s.afterDecision f k).freeCount = s.freeCount := rfl

/-! ### sendWord -/

@[simp] theorem State.sendWord_pending (w : SyncWord) : (s.sendWord w).pending = s.pending := rfl
@[simp] theorem State.sendWord_now (w : SyncWord) : (s.sendWord w).now = s.now := rfl
@[simp] theorem State.sendWord_phase (w : SyncWord) : (s.sendWord w).phase = s.phase := rfl
@[simp] theorem State.sendWord_startingEnd (w : SyncWord) : (s.sendWord w).startingEnd = s.startingEnd := rfl
@[simp] theorem State.sendWord_pins (w : SyncWord) : (s.sendWord w).pins = s.pins := rfl
@[simp] theorem State.sendWord_clc (w : SyncWord) : (s.sendWord w).clc = s.clc := rfl
@[simp] theorem State.sendWord_rate (w : SyncWord) : (s.sendWord w).rate = s.rate := rfl
@[simp] theorem State.sendWord_rateNow (w : SyncWord) : (s.sendWord w).rateNow = s.rateNow := rfl
@[simp] theorem State.sendWord_geo (w : SyncWord) : (s.sendWord w).geo = s.geo := rfl
@[simp] theorem State.sendWord_held (w : SyncWord) : (s.sendWord w).held = s.held := rfl
@[simp] theorem State.sendWord_tiles (w : SyncWord) : (s.sendWord w).tiles = s.tiles := rfl
@[simp] theorem State.sendWord_ports (w : SyncWord) : (s.sendWord w).ports = s.ports := rfl
@[simp] theorem State.sendWord_frames (w : SyncWord) : (s.sendWord w).frames = s.frames := rfl
@[simp] theorem State.sendWord_cmp (w : SyncWord) : (s.sendWord w).cmp = s.cmp := rfl
@[simp] theorem State.sendWord_links (w : SyncWord) : (s.sendWord w).links = s.links := rfl
@[simp] theorem State.sendWord_bg (w : SyncWord) : (s.sendWord w).bg = s.bg := rfl
@[simp] theorem State.sendWord_bgNow (w : SyncWord) : (s.sendWord w).bgNow = s.bgNow := rfl
@[simp] theorem State.sendWord_sdir (w : SyncWord) : (s.sendWord w).sdir = s.sdir := rfl
@[simp] theorem State.sendWord_store (w : SyncWord) : (s.sendWord w).store = s.store := rfl
@[simp] theorem State.sendWord_storeEpoch (w : SyncWord) : (s.sendWord w).storeEpoch = s.storeEpoch := rfl
@[simp] theorem State.sendWord_fsc (w : SyncWord) : (s.sendWord w).fsc = s.fsc := rfl
@[simp] theorem State.sendWord_ptab (w : SyncWord) : (s.sendWord w).ptab = s.ptab := rfl
@[simp] theorem State.sendWord_groups (w : SyncWord) : (s.sendWord w).groups = s.groups := rfl
@[simp] theorem State.sendWord_due (w : SyncWord) : (s.sendWord w).due = s.due := rfl
@[simp] theorem State.sendWord_csu (w : SyncWord) :
    (s.sendWord w).csu = { s.csu with fsync := some w } := rfl
@[simp] theorem State.sendWord_cvb (w : SyncWord) : (s.sendWord w).cvb = s.cvb := rfl
@[simp] theorem State.sendWord_cbi (w : SyncWord) : (s.sendWord w).cbi = s.cbi := rfl
@[simp] theorem State.sendWord_evb (w : SyncWord) : (s.sendWord w).evb = s.evb := rfl
@[simp] theorem State.sendWord_freeCount (w : SyncWord) : (s.sendWord w).freeCount = s.freeCount := rfl

/-! ### releaseDoubt -/

@[simp] theorem State.releaseDoubt_pending (g : GroupId) : (s.releaseDoubt g).pending = s.pending := by simp [State.releaseDoubt]
@[simp] theorem State.releaseDoubt_now (g : GroupId) : (s.releaseDoubt g).now = s.now := by simp [State.releaseDoubt]
@[simp] theorem State.releaseDoubt_phase (g : GroupId) : (s.releaseDoubt g).phase = s.phase := by simp [State.releaseDoubt]
@[simp] theorem State.releaseDoubt_startingEnd (g : GroupId) : (s.releaseDoubt g).startingEnd = s.startingEnd := by simp [State.releaseDoubt]
@[simp] theorem State.releaseDoubt_pins (g : GroupId) : (s.releaseDoubt g).pins = s.pins := by simp [State.releaseDoubt]
@[simp] theorem State.releaseDoubt_clc (g : GroupId) : (s.releaseDoubt g).clc = s.clc := by simp [State.releaseDoubt]
@[simp] theorem State.releaseDoubt_rate (g : GroupId) : (s.releaseDoubt g).rate = s.rate := by simp [State.releaseDoubt]
@[simp] theorem State.releaseDoubt_rateNow (g : GroupId) : (s.releaseDoubt g).rateNow = s.rateNow := by simp [State.releaseDoubt]
@[simp] theorem State.releaseDoubt_geo (g : GroupId) : (s.releaseDoubt g).geo = s.geo := by simp [State.releaseDoubt]
@[simp] theorem State.releaseDoubt_held (g : GroupId) : (s.releaseDoubt g).held = s.held := by simp [State.releaseDoubt]
@[simp] theorem State.releaseDoubt_tiles (g : GroupId) : (s.releaseDoubt g).tiles = s.tiles := by simp [State.releaseDoubt]
@[simp] theorem State.releaseDoubt_ports (g : GroupId) : (s.releaseDoubt g).ports = s.ports := by simp [State.releaseDoubt]
@[simp] theorem State.releaseDoubt_frames (g : GroupId) : (s.releaseDoubt g).frames = s.frames := by simp [State.releaseDoubt]
@[simp] theorem State.releaseDoubt_cmp (g : GroupId) : (s.releaseDoubt g).cmp = s.cmp := by simp [State.releaseDoubt]
@[simp] theorem State.releaseDoubt_links (g : GroupId) : (s.releaseDoubt g).links = s.links := by simp [State.releaseDoubt]
@[simp] theorem State.releaseDoubt_bg (g : GroupId) : (s.releaseDoubt g).bg = s.bg := by simp [State.releaseDoubt]
@[simp] theorem State.releaseDoubt_bgNow (g : GroupId) : (s.releaseDoubt g).bgNow = s.bgNow := by simp [State.releaseDoubt]
@[simp] theorem State.releaseDoubt_sdir (g : GroupId) : (s.releaseDoubt g).sdir = s.sdir := by simp [State.releaseDoubt]
@[simp] theorem State.releaseDoubt_store (g : GroupId) : (s.releaseDoubt g).store = s.store := by simp [State.releaseDoubt]
@[simp] theorem State.releaseDoubt_storeEpoch (g : GroupId) : (s.releaseDoubt g).storeEpoch = s.storeEpoch := by simp [State.releaseDoubt]
@[simp] theorem State.releaseDoubt_fsc (g : GroupId) : (s.releaseDoubt g).fsc = s.fsc := by simp [State.releaseDoubt]
@[simp] theorem State.releaseDoubt_ptab (g : GroupId) : (s.releaseDoubt g).ptab = s.ptab := by simp [State.releaseDoubt]
@[simp] theorem State.releaseDoubt_groups (g : GroupId) :
    (s.releaseDoubt g).groups = s.groups.modify g fun r => { r with state := .idle } := by simp [State.releaseDoubt]
@[simp] theorem State.releaseDoubt_due (g : GroupId) : (s.releaseDoubt g).due = s.due := by simp [State.releaseDoubt]
@[simp] theorem State.releaseDoubt_csu (g : GroupId) : (s.releaseDoubt g).csu = s.csu := by simp [State.releaseDoubt]
@[simp] theorem State.releaseDoubt_cvb (g : GroupId) :
    (s.releaseDoubt g).cvb = s.cvb.dropFor g := by simp [State.releaseDoubt]
@[simp] theorem State.releaseDoubt_cbi (g : GroupId) : (s.releaseDoubt g).cbi = s.cbi := by simp [State.releaseDoubt]
@[simp] theorem State.releaseDoubt_evb (g : GroupId) : (s.releaseDoubt g).evb = s.evb := by simp [State.releaseDoubt]
@[simp] theorem State.releaseDoubt_freeCount (g : GroupId) : (s.releaseDoubt g).freeCount = s.freeCount := by simp [State.releaseDoubt]

/-! ### countWord -/

@[simp] theorem State.countWord_pending (w : SyncWord) : (s.countWord w).pending = s.pending := rfl
@[simp] theorem State.countWord_now (w : SyncWord) : (s.countWord w).now = s.now := rfl
@[simp] theorem State.countWord_phase (w : SyncWord) : (s.countWord w).phase = s.phase := rfl
@[simp] theorem State.countWord_startingEnd (w : SyncWord) : (s.countWord w).startingEnd = s.startingEnd := rfl
@[simp] theorem State.countWord_pins (w : SyncWord) : (s.countWord w).pins = s.pins := rfl
@[simp] theorem State.countWord_clc (w : SyncWord) : (s.countWord w).clc = s.clc := rfl
@[simp] theorem State.countWord_rate (w : SyncWord) : (s.countWord w).rate = s.rate := rfl
@[simp] theorem State.countWord_rateNow (w : SyncWord) : (s.countWord w).rateNow = s.rateNow := rfl
@[simp] theorem State.countWord_geo (w : SyncWord) : (s.countWord w).geo = s.geo := rfl
@[simp] theorem State.countWord_held (w : SyncWord) : (s.countWord w).held = s.held := rfl
@[simp] theorem State.countWord_tiles (w : SyncWord) : (s.countWord w).tiles = s.tiles := rfl
@[simp] theorem State.countWord_ports (w : SyncWord) : (s.countWord w).ports = s.ports := rfl
@[simp] theorem State.countWord_frames (w : SyncWord) : (s.countWord w).frames = s.frames := rfl
@[simp] theorem State.countWord_cmp (w : SyncWord) : (s.countWord w).cmp = s.cmp := rfl
@[simp] theorem State.countWord_links (w : SyncWord) : (s.countWord w).links = s.links := rfl
@[simp] theorem State.countWord_bg (w : SyncWord) : (s.countWord w).bg = s.bg := rfl
@[simp] theorem State.countWord_bgNow (w : SyncWord) : (s.countWord w).bgNow = s.bgNow := rfl
@[simp] theorem State.countWord_sdir (w : SyncWord) : (s.countWord w).sdir = s.sdir := rfl
@[simp] theorem State.countWord_store (w : SyncWord) : (s.countWord w).store = s.store := rfl
@[simp] theorem State.countWord_storeEpoch (w : SyncWord) : (s.countWord w).storeEpoch = s.storeEpoch := rfl
@[simp] theorem State.countWord_fsc (w : SyncWord) : (s.countWord w).fsc = s.fsc := rfl
@[simp] theorem State.countWord_ptab (w : SyncWord) : (s.countWord w).ptab = s.ptab := rfl
@[simp] theorem State.countWord_groups (w : SyncWord) : (s.countWord w).groups = s.groups := rfl
@[simp] theorem State.countWord_due (w : SyncWord) : (s.countWord w).due = s.due := rfl
@[simp] theorem State.countWord_csu (w : SyncWord) :
    (s.countWord w).csu = { s.csu with lockRun := s.countedRun w.frame, lastCounted := some (w.frame, s.now) } := rfl
@[simp] theorem State.countWord_cvb (w : SyncWord) : (s.countWord w).cvb = s.cvb := rfl
@[simp] theorem State.countWord_cbi (w : SyncWord) : (s.countWord w).cbi = s.cbi := rfl
@[simp] theorem State.countWord_evb (w : SyncWord) : (s.countWord w).evb = s.evb := rfl
@[simp] theorem State.countWord_freeCount (w : SyncWord) : (s.countWord w).freeCount = s.freeCount := rfl

/-! ### endComparison -/

@[simp] theorem State.endComparison_pending : (s.endComparison).pending = s.pending := by simp [State.endComparison]
@[simp] theorem State.endComparison_now : (s.endComparison).now = s.now := by simp [State.endComparison]
@[simp] theorem State.endComparison_phase : (s.endComparison).phase = s.phase := by simp [State.endComparison]
@[simp] theorem State.endComparison_startingEnd : (s.endComparison).startingEnd = s.startingEnd := by simp [State.endComparison]
@[simp] theorem State.endComparison_pins : (s.endComparison).pins = s.pins := by simp [State.endComparison]
@[simp] theorem State.endComparison_clc : (s.endComparison).clc = s.clc := by simp [State.endComparison]
@[simp] theorem State.endComparison_rate : (s.endComparison).rate = s.rate := by simp [State.endComparison]
@[simp] theorem State.endComparison_rateNow : (s.endComparison).rateNow = s.rateNow := by simp [State.endComparison]
@[simp] theorem State.endComparison_geo : (s.endComparison).geo = s.geo := by simp [State.endComparison]
@[simp] theorem State.endComparison_held : (s.endComparison).held = s.held := by simp [State.endComparison]
@[simp] theorem State.endComparison_tiles : (s.endComparison).tiles = s.tiles := by simp [State.endComparison]
@[simp] theorem State.endComparison_ports : (s.endComparison).ports = s.ports := by simp [State.endComparison]
@[simp] theorem State.endComparison_frames : (s.endComparison).frames = s.frames := by simp [State.endComparison]
@[simp] theorem State.endComparison_cmp : (s.endComparison).cmp = s.cmp := by simp [State.endComparison]
@[simp] theorem State.endComparison_links : (s.endComparison).links = s.links := by simp [State.endComparison]
@[simp] theorem State.endComparison_bg : (s.endComparison).bg = s.bg := by simp [State.endComparison]
@[simp] theorem State.endComparison_bgNow : (s.endComparison).bgNow = s.bgNow := by simp [State.endComparison]
@[simp] theorem State.endComparison_sdir : (s.endComparison).sdir = s.sdir := by simp [State.endComparison]
@[simp] theorem State.endComparison_store : (s.endComparison).store = s.store := by simp [State.endComparison]
@[simp] theorem State.endComparison_storeEpoch : (s.endComparison).storeEpoch = s.storeEpoch := by simp [State.endComparison]
@[simp] theorem State.endComparison_fsc : (s.endComparison).fsc = s.fsc := by simp [State.endComparison]
@[simp] theorem State.endComparison_ptab : (s.endComparison).ptab = s.ptab := by simp [State.endComparison]
@[simp] theorem State.endComparison_groups : (s.endComparison).groups = s.groups := by simp [State.endComparison]
@[simp] theorem State.endComparison_due : (s.endComparison).due = s.due := by simp [State.endComparison]
@[simp] theorem State.endComparison_cvb : (s.endComparison).cvb = s.cvb := by simp [State.endComparison]
@[simp] theorem State.endComparison_cbi : (s.endComparison).cbi = s.cbi := by simp [State.endComparison]
@[simp] theorem State.endComparison_evb : (s.endComparison).evb = s.evb := by simp [State.endComparison]
@[simp] theorem State.endComparison_freeCount : (s.endComparison).freeCount = s.freeCount := by simp [State.endComparison]

/-! ### handOverUpload -/

@[simp] theorem State.handOverUpload_pending (u : UploadWrite) : (s.handOverUpload u).pending = s.pending := by simp [State.handOverUpload]
@[simp] theorem State.handOverUpload_now (u : UploadWrite) : (s.handOverUpload u).now = s.now := by simp [State.handOverUpload]
@[simp] theorem State.handOverUpload_phase (u : UploadWrite) : (s.handOverUpload u).phase = s.phase := by simp [State.handOverUpload]
@[simp] theorem State.handOverUpload_startingEnd (u : UploadWrite) : (s.handOverUpload u).startingEnd = s.startingEnd := by simp [State.handOverUpload]
@[simp] theorem State.handOverUpload_pins (u : UploadWrite) : (s.handOverUpload u).pins = s.pins := by simp [State.handOverUpload]
@[simp] theorem State.handOverUpload_clc (u : UploadWrite) : (s.handOverUpload u).clc = s.clc := by simp [State.handOverUpload]
@[simp] theorem State.handOverUpload_rate (u : UploadWrite) : (s.handOverUpload u).rate = s.rate := by simp [State.handOverUpload]
@[simp] theorem State.handOverUpload_rateNow (u : UploadWrite) : (s.handOverUpload u).rateNow = s.rateNow := by simp [State.handOverUpload]
@[simp] theorem State.handOverUpload_geo (u : UploadWrite) : (s.handOverUpload u).geo = s.geo := by simp [State.handOverUpload]
@[simp] theorem State.handOverUpload_held (u : UploadWrite) : (s.handOverUpload u).held = s.held := by simp [State.handOverUpload]
@[simp] theorem State.handOverUpload_tiles (u : UploadWrite) : (s.handOverUpload u).tiles = s.tiles := by simp [State.handOverUpload]
@[simp] theorem State.handOverUpload_ports (u : UploadWrite) : (s.handOverUpload u).ports = s.ports := by simp [State.handOverUpload]
@[simp] theorem State.handOverUpload_frames (u : UploadWrite) : (s.handOverUpload u).frames = s.frames := by simp [State.handOverUpload]
@[simp] theorem State.handOverUpload_cmp (u : UploadWrite) : (s.handOverUpload u).cmp = s.cmp := by simp [State.handOverUpload]
@[simp] theorem State.handOverUpload_links (u : UploadWrite) : (s.handOverUpload u).links = s.links := by simp [State.handOverUpload]
@[simp] theorem State.handOverUpload_bg (u : UploadWrite) : (s.handOverUpload u).bg = s.bg := by simp [State.handOverUpload]
@[simp] theorem State.handOverUpload_bgNow (u : UploadWrite) : (s.handOverUpload u).bgNow = s.bgNow := by simp [State.handOverUpload]
@[simp] theorem State.handOverUpload_sdir (u : UploadWrite) : (s.handOverUpload u).sdir = s.sdir := by simp [State.handOverUpload]
@[simp] theorem State.handOverUpload_store (u : UploadWrite) : (s.handOverUpload u).store = s.store := by simp [State.handOverUpload]
@[simp] theorem State.handOverUpload_storeEpoch (u : UploadWrite) : (s.handOverUpload u).storeEpoch = s.storeEpoch := by simp [State.handOverUpload]
@[simp] theorem State.handOverUpload_ptab (u : UploadWrite) : (s.handOverUpload u).ptab = s.ptab := by simp [State.handOverUpload]
@[simp] theorem State.handOverUpload_groups (u : UploadWrite) : (s.handOverUpload u).groups = s.groups := by simp [State.handOverUpload]
@[simp] theorem State.handOverUpload_due (u : UploadWrite) : (s.handOverUpload u).due = s.due := by simp [State.handOverUpload]
@[simp] theorem State.handOverUpload_csu (u : UploadWrite) : (s.handOverUpload u).csu = s.csu := by simp [State.handOverUpload]
@[simp] theorem State.handOverUpload_cvb (u : UploadWrite) : (s.handOverUpload u).cvb = s.cvb := by simp [State.handOverUpload]
@[simp] theorem State.handOverUpload_cbi (u : UploadWrite) : (s.handOverUpload u).cbi = s.cbi := by simp [State.handOverUpload]
@[simp] theorem State.handOverUpload_evb (u : UploadWrite) : (s.handOverUpload u).evb = s.evb := by simp [State.handOverUpload]
@[simp] theorem State.handOverUpload_freeCount (u : UploadWrite) : (s.handOverUpload u).freeCount = s.freeCount := by simp [State.handOverUpload]

/-! ### withdrawGroup -/

@[simp] theorem State.withdrawGroup_pending (g : GroupId) : (s.withdrawGroup g).pending = s.pending := by simp [State.withdrawGroup]
@[simp] theorem State.withdrawGroup_now (g : GroupId) : (s.withdrawGroup g).now = s.now := by simp [State.withdrawGroup]
@[simp] theorem State.withdrawGroup_phase (g : GroupId) : (s.withdrawGroup g).phase = s.phase := by simp [State.withdrawGroup]
@[simp] theorem State.withdrawGroup_startingEnd (g : GroupId) : (s.withdrawGroup g).startingEnd = s.startingEnd := by simp [State.withdrawGroup]
@[simp] theorem State.withdrawGroup_pins (g : GroupId) : (s.withdrawGroup g).pins = s.pins := by simp [State.withdrawGroup]
@[simp] theorem State.withdrawGroup_clc (g : GroupId) : (s.withdrawGroup g).clc = s.clc := by simp [State.withdrawGroup]
@[simp] theorem State.withdrawGroup_rate (g : GroupId) : (s.withdrawGroup g).rate = s.rate := by simp [State.withdrawGroup]
@[simp] theorem State.withdrawGroup_rateNow (g : GroupId) : (s.withdrawGroup g).rateNow = s.rateNow := by simp [State.withdrawGroup]
@[simp] theorem State.withdrawGroup_geo (g : GroupId) : (s.withdrawGroup g).geo = s.geo := by simp [State.withdrawGroup]
@[simp] theorem State.withdrawGroup_held (g : GroupId) : (s.withdrawGroup g).held = s.held := by simp [State.withdrawGroup]
@[simp] theorem State.withdrawGroup_tiles (g : GroupId) : (s.withdrawGroup g).tiles = s.tiles := by simp [State.withdrawGroup]
@[simp] theorem State.withdrawGroup_ports (g : GroupId) : (s.withdrawGroup g).ports = s.ports := by simp [State.withdrawGroup]
@[simp] theorem State.withdrawGroup_frames (g : GroupId) : (s.withdrawGroup g).frames = s.frames := by simp [State.withdrawGroup]
@[simp] theorem State.withdrawGroup_cmp (g : GroupId) : (s.withdrawGroup g).cmp = s.cmp := by simp [State.withdrawGroup]
@[simp] theorem State.withdrawGroup_links (g : GroupId) : (s.withdrawGroup g).links = s.links := by simp [State.withdrawGroup]
@[simp] theorem State.withdrawGroup_bg (g : GroupId) : (s.withdrawGroup g).bg = s.bg := by simp [State.withdrawGroup]
@[simp] theorem State.withdrawGroup_bgNow (g : GroupId) : (s.withdrawGroup g).bgNow = s.bgNow := by simp [State.withdrawGroup]
@[simp] theorem State.withdrawGroup_sdir (g : GroupId) : (s.withdrawGroup g).sdir = s.sdir := by simp [State.withdrawGroup]
@[simp] theorem State.withdrawGroup_store (g : GroupId) : (s.withdrawGroup g).store = s.store := by simp [State.withdrawGroup]
@[simp] theorem State.withdrawGroup_storeEpoch (g : GroupId) : (s.withdrawGroup g).storeEpoch = s.storeEpoch := by simp [State.withdrawGroup]
@[simp] theorem State.withdrawGroup_fsc (g : GroupId) : (s.withdrawGroup g).fsc = s.fsc := by simp [State.withdrawGroup]
@[simp] theorem State.withdrawGroup_ptab (g : GroupId) : (s.withdrawGroup g).ptab = s.ptab := by simp [State.withdrawGroup]
@[simp] theorem State.withdrawGroup_groups (g : GroupId) :
    (s.withdrawGroup g).groups = s.groups.modify g fun r => { r with state := .idle } := by simp [State.withdrawGroup]
@[simp] theorem State.withdrawGroup_due (g : GroupId) :
    (s.withdrawGroup g).due = s.due.filter fun h => h ≠ g := by simp [State.withdrawGroup]
@[simp] theorem State.withdrawGroup_csu (g : GroupId) : (s.withdrawGroup g).csu = s.csu := by simp [State.withdrawGroup]
@[simp] theorem State.withdrawGroup_cvb (g : GroupId) : (s.withdrawGroup g).cvb = s.cvb := by simp [State.withdrawGroup]
@[simp] theorem State.withdrawGroup_cbi (g : GroupId) : (s.withdrawGroup g).cbi = s.cbi := by simp [State.withdrawGroup]
@[simp] theorem State.withdrawGroup_evb (g : GroupId) : (s.withdrawGroup g).evb = s.evb := by simp [State.withdrawGroup]
@[simp] theorem State.withdrawGroup_freeCount (g : GroupId) : (s.withdrawGroup g).freeCount = s.freeCount := by simp [State.withdrawGroup]

/-! ### beginStart -/

@[simp] theorem State.beginStart_pending : (s.beginStart).pending = s.pending := by simp [State.beginStart]
@[simp] theorem State.beginStart_now : (s.beginStart).now = s.now := by simp [State.beginStart]
@[simp] theorem State.beginStart_phase : (s.beginStart).phase = s.phase := by simp [State.beginStart]
@[simp] theorem State.beginStart_startingEnd : (s.beginStart).startingEnd = s.startingEnd := by simp [State.beginStart]
@[simp] theorem State.beginStart_pins : (s.beginStart).pins = s.pins := by simp [State.beginStart]
@[simp] theorem State.beginStart_clc : (s.beginStart).clc = s.clc := by simp [State.beginStart]
@[simp] theorem State.beginStart_rate : (s.beginStart).rate = s.rate := by simp [State.beginStart]
@[simp] theorem State.beginStart_rateNow : (s.beginStart).rateNow = s.rateNow := by simp [State.beginStart]
@[simp] theorem State.beginStart_geo : (s.beginStart).geo = s.geo := by simp [State.beginStart]
@[simp] theorem State.beginStart_held :
    (s.beginStart).held = s.geometryNow := by simp [State.beginStart]
@[simp] theorem State.beginStart_tiles : (s.beginStart).tiles = s.tiles := by simp [State.beginStart]
@[simp] theorem State.beginStart_ports : (s.beginStart).ports = s.ports := by simp [State.beginStart]
@[simp] theorem State.beginStart_frames : (s.beginStart).frames = s.frames := by simp [State.beginStart]
@[simp] theorem State.beginStart_cmp : (s.beginStart).cmp = s.cmp := by simp [State.beginStart]
@[simp] theorem State.beginStart_links : (s.beginStart).links = s.links := by simp [State.beginStart]
@[simp] theorem State.beginStart_bg : (s.beginStart).bg = s.bg := by simp [State.beginStart]
@[simp] theorem State.beginStart_bgNow : (s.beginStart).bgNow = s.bgNow := by simp [State.beginStart]
@[simp] theorem State.beginStart_sdir : (s.beginStart).sdir = s.sdir := by simp [State.beginStart]
@[simp] theorem State.beginStart_store : (s.beginStart).store = s.store := by simp [State.beginStart]
@[simp] theorem State.beginStart_storeEpoch : (s.beginStart).storeEpoch = s.storeEpoch := by simp [State.beginStart]
@[simp] theorem State.beginStart_fsc : (s.beginStart).fsc = s.fsc := by simp [State.beginStart]
@[simp] theorem State.beginStart_ptab : (s.beginStart).ptab = s.ptab := by simp [State.beginStart]
@[simp] theorem State.beginStart_groups : (s.beginStart).groups = s.groups := by simp [State.beginStart]
@[simp] theorem State.beginStart_due : (s.beginStart).due = s.due := by simp [State.beginStart]
@[simp] theorem State.beginStart_cvb :
    (s.beginStart).cvb = s.listsAtStart := by simp [State.beginStart]
@[simp] theorem State.beginStart_cbi : (s.beginStart).cbi = s.cbi := by simp [State.beginStart]
@[simp] theorem State.beginStart_freeCount : (s.beginStart).freeCount = s.freeCount := by simp [State.beginStart]

/-! ### enterPhase -/

@[simp] theorem State.enterPhase_pending (p : Phase) : (s.enterPhase p).pending = s.pending := by simp [State.enterPhase]
@[simp] theorem State.enterPhase_now (p : Phase) : (s.enterPhase p).now = s.now := by simp [State.enterPhase]
@[simp] theorem State.enterPhase_phase (p : Phase) :
    (s.enterPhase p).phase = p := by simp [State.enterPhase]
@[simp] theorem State.enterPhase_startingEnd (p : Phase) : (s.enterPhase p).startingEnd = s.startingEnd := by simp [State.enterPhase]
@[simp] theorem State.enterPhase_pins (p : Phase) : (s.enterPhase p).pins = s.pins := by simp [State.enterPhase]
@[simp] theorem State.enterPhase_clc (p : Phase) : (s.enterPhase p).clc = s.clc := by simp [State.enterPhase]
@[simp] theorem State.enterPhase_rate (p : Phase) : (s.enterPhase p).rate = s.rate := by simp [State.enterPhase]
@[simp] theorem State.enterPhase_rateNow (p : Phase) : (s.enterPhase p).rateNow = s.rateNow := by simp [State.enterPhase]
@[simp] theorem State.enterPhase_geo (p : Phase) : (s.enterPhase p).geo = s.geo := by simp [State.enterPhase]
@[simp] theorem State.enterPhase_held (p : Phase) : (s.enterPhase p).held = s.held := by simp [State.enterPhase]
@[simp] theorem State.enterPhase_tiles (p : Phase) : (s.enterPhase p).tiles = s.tiles := by simp [State.enterPhase]
@[simp] theorem State.enterPhase_ports (p : Phase) : (s.enterPhase p).ports = s.ports := by simp [State.enterPhase]
@[simp] theorem State.enterPhase_frames (p : Phase) : (s.enterPhase p).frames = s.frames := by simp [State.enterPhase]
@[simp] theorem State.enterPhase_cmp (p : Phase) : (s.enterPhase p).cmp = s.cmp := by simp [State.enterPhase]
@[simp] theorem State.enterPhase_links (p : Phase) : (s.enterPhase p).links = s.links := by simp [State.enterPhase]
@[simp] theorem State.enterPhase_bg (p : Phase) : (s.enterPhase p).bg = s.bg := by simp [State.enterPhase]
@[simp] theorem State.enterPhase_bgNow (p : Phase) : (s.enterPhase p).bgNow = s.bgNow := by simp [State.enterPhase]
@[simp] theorem State.enterPhase_sdir (p : Phase) : (s.enterPhase p).sdir = s.sdir := by simp [State.enterPhase]
@[simp] theorem State.enterPhase_store (p : Phase) : (s.enterPhase p).store = s.store := by simp [State.enterPhase]
@[simp] theorem State.enterPhase_storeEpoch (p : Phase) : (s.enterPhase p).storeEpoch = s.storeEpoch := by simp [State.enterPhase]
@[simp] theorem State.enterPhase_fsc (p : Phase) : (s.enterPhase p).fsc = s.fsc := by simp [State.enterPhase]
@[simp] theorem State.enterPhase_ptab (p : Phase) : (s.enterPhase p).ptab = s.ptab := by simp [State.enterPhase]
@[simp] theorem State.enterPhase_groups (p : Phase) : (s.enterPhase p).groups = s.groups := by simp [State.enterPhase]
@[simp] theorem State.enterPhase_due (p : Phase) : (s.enterPhase p).due = s.due := by simp [State.enterPhase]
@[simp] theorem State.enterPhase_cvb (p : Phase) : (s.enterPhase p).cvb = s.cvb := by simp [State.enterPhase]
@[simp] theorem State.enterPhase_cbi (p : Phase) : (s.enterPhase p).cbi = s.cbi := by simp [State.enterPhase]
@[simp] theorem State.enterPhase_evb (p : Phase) : (s.enterPhase p).evb = s.evb := by simp [State.enterPhase]
@[simp] theorem State.enterPhase_freeCount (p : Phase) : (s.enterPhase p).freeCount = s.freeCount := by simp [State.enterPhase]

/-! ### writeModes -/

@[simp] theorem State.writeModes_pending (ts : List TileId) (m : Mode) (flat : Option Rgb) (level : Option Nat) : (s.writeModes ts m flat level).pending = s.pending := rfl
@[simp] theorem State.writeModes_now (ts : List TileId) (m : Mode) (flat : Option Rgb) (level : Option Nat) : (s.writeModes ts m flat level).now = s.now := rfl
@[simp] theorem State.writeModes_phase (ts : List TileId) (m : Mode) (flat : Option Rgb) (level : Option Nat) : (s.writeModes ts m flat level).phase = s.phase := rfl
@[simp] theorem State.writeModes_startingEnd (ts : List TileId) (m : Mode) (flat : Option Rgb) (level : Option Nat) : (s.writeModes ts m flat level).startingEnd = s.startingEnd := rfl
@[simp] theorem State.writeModes_pins (ts : List TileId) (m : Mode) (flat : Option Rgb) (level : Option Nat) : (s.writeModes ts m flat level).pins = s.pins := rfl
@[simp] theorem State.writeModes_clc (ts : List TileId) (m : Mode) (flat : Option Rgb) (level : Option Nat) : (s.writeModes ts m flat level).clc = s.clc := rfl
@[simp] theorem State.writeModes_rate (ts : List TileId) (m : Mode) (flat : Option Rgb) (level : Option Nat) : (s.writeModes ts m flat level).rate = s.rate := rfl
@[simp] theorem State.writeModes_rateNow (ts : List TileId) (m : Mode) (flat : Option Rgb) (level : Option Nat) : (s.writeModes ts m flat level).rateNow = s.rateNow := rfl
@[simp] theorem State.writeModes_geo (ts : List TileId) (m : Mode) (flat : Option Rgb) (level : Option Nat) : (s.writeModes ts m flat level).geo = s.geo := rfl
@[simp] theorem State.writeModes_held (ts : List TileId) (m : Mode) (flat : Option Rgb) (level : Option Nat) : (s.writeModes ts m flat level).held = s.held := rfl
@[simp] theorem State.writeModes_tiles (ts : List TileId) (m : Mode) (flat : Option Rgb) (level : Option Nat) :
    (s.writeModes ts m flat level).tiles = s.tiles.mapIdx fun t r => if t ∈ ts then r.withMode m flat level else r := rfl
@[simp] theorem State.writeModes_ports (ts : List TileId) (m : Mode) (flat : Option Rgb) (level : Option Nat) : (s.writeModes ts m flat level).ports = s.ports := rfl
@[simp] theorem State.writeModes_frames (ts : List TileId) (m : Mode) (flat : Option Rgb) (level : Option Nat) : (s.writeModes ts m flat level).frames = s.frames := rfl
@[simp] theorem State.writeModes_cmp (ts : List TileId) (m : Mode) (flat : Option Rgb) (level : Option Nat) : (s.writeModes ts m flat level).cmp = s.cmp := rfl
@[simp] theorem State.writeModes_links (ts : List TileId) (m : Mode) (flat : Option Rgb) (level : Option Nat) : (s.writeModes ts m flat level).links = s.links := rfl
@[simp] theorem State.writeModes_bg (ts : List TileId) (m : Mode) (flat : Option Rgb) (level : Option Nat) : (s.writeModes ts m flat level).bg = s.bg := rfl
@[simp] theorem State.writeModes_bgNow (ts : List TileId) (m : Mode) (flat : Option Rgb) (level : Option Nat) : (s.writeModes ts m flat level).bgNow = s.bgNow := rfl
@[simp] theorem State.writeModes_sdir (ts : List TileId) (m : Mode) (flat : Option Rgb) (level : Option Nat) : (s.writeModes ts m flat level).sdir = s.sdir := rfl
@[simp] theorem State.writeModes_store (ts : List TileId) (m : Mode) (flat : Option Rgb) (level : Option Nat) : (s.writeModes ts m flat level).store = s.store := rfl
@[simp] theorem State.writeModes_storeEpoch (ts : List TileId) (m : Mode) (flat : Option Rgb) (level : Option Nat) : (s.writeModes ts m flat level).storeEpoch = s.storeEpoch := rfl
@[simp] theorem State.writeModes_fsc (ts : List TileId) (m : Mode) (flat : Option Rgb) (level : Option Nat) : (s.writeModes ts m flat level).fsc = s.fsc := rfl
@[simp] theorem State.writeModes_ptab (ts : List TileId) (m : Mode) (flat : Option Rgb) (level : Option Nat) : (s.writeModes ts m flat level).ptab = s.ptab := rfl
@[simp] theorem State.writeModes_groups (ts : List TileId) (m : Mode) (flat : Option Rgb) (level : Option Nat) : (s.writeModes ts m flat level).groups = s.groups := rfl
@[simp] theorem State.writeModes_due (ts : List TileId) (m : Mode) (flat : Option Rgb) (level : Option Nat) : (s.writeModes ts m flat level).due = s.due := rfl
@[simp] theorem State.writeModes_csu (ts : List TileId) (m : Mode) (flat : Option Rgb) (level : Option Nat) : (s.writeModes ts m flat level).csu = s.csu := rfl
@[simp] theorem State.writeModes_cvb (ts : List TileId) (m : Mode) (flat : Option Rgb) (level : Option Nat) : (s.writeModes ts m flat level).cvb = s.cvb := rfl
@[simp] theorem State.writeModes_cbi (ts : List TileId) (m : Mode) (flat : Option Rgb) (level : Option Nat) : (s.writeModes ts m flat level).cbi = s.cbi := rfl
@[simp] theorem State.writeModes_evb (ts : List TileId) (m : Mode) (flat : Option Rgb) (level : Option Nat) : (s.writeModes ts m flat level).evb = s.evb := rfl
@[simp] theorem State.writeModes_freeCount (ts : List TileId) (m : Mode) (flat : Option Rgb) (level : Option Nat) : (s.writeModes ts m flat level).freeCount = s.freeCount := rfl

/-! ### switchPorts -/

@[simp] theorem State.switchPorts_pending (ts : List TileId) (on : Bool) : (s.switchPorts ts on).pending = s.pending := by simp [State.switchPorts]
@[simp] theorem State.switchPorts_now (ts : List TileId) (on : Bool) : (s.switchPorts ts on).now = s.now := by simp [State.switchPorts]
@[simp] theorem State.switchPorts_phase (ts : List TileId) (on : Bool) : (s.switchPorts ts on).phase = s.phase := by simp [State.switchPorts]
@[simp] theorem State.switchPorts_startingEnd (ts : List TileId) (on : Bool) : (s.switchPorts ts on).startingEnd = s.startingEnd := by simp [State.switchPorts]
@[simp] theorem State.switchPorts_pins (ts : List TileId) (on : Bool) : (s.switchPorts ts on).pins = s.pins := by simp [State.switchPorts]
@[simp] theorem State.switchPorts_clc (ts : List TileId) (on : Bool) : (s.switchPorts ts on).clc = s.clc := by simp [State.switchPorts]
@[simp] theorem State.switchPorts_rate (ts : List TileId) (on : Bool) : (s.switchPorts ts on).rate = s.rate := by simp [State.switchPorts]
@[simp] theorem State.switchPorts_rateNow (ts : List TileId) (on : Bool) : (s.switchPorts ts on).rateNow = s.rateNow := by simp [State.switchPorts]
@[simp] theorem State.switchPorts_geo (ts : List TileId) (on : Bool) : (s.switchPorts ts on).geo = s.geo := by simp [State.switchPorts]
@[simp] theorem State.switchPorts_held (ts : List TileId) (on : Bool) : (s.switchPorts ts on).held = s.held := by simp [State.switchPorts]
@[simp] theorem State.switchPorts_tiles (ts : List TileId) (on : Bool) : (s.switchPorts ts on).tiles = s.tiles := by simp [State.switchPorts]
@[simp] theorem State.switchPorts_ports (ts : List TileId) (on : Bool) :
    (s.switchPorts ts on).ports = Table.ofFn fun t => (s.switchStep ts on t).1 := by simp [State.switchPorts]
@[simp] theorem State.switchPorts_frames (ts : List TileId) (on : Bool) : (s.switchPorts ts on).frames = s.frames := by simp [State.switchPorts]
@[simp] theorem State.switchPorts_cmp (ts : List TileId) (on : Bool) : (s.switchPorts ts on).cmp = s.cmp := by simp [State.switchPorts]
@[simp] theorem State.switchPorts_links (ts : List TileId) (on : Bool) : (s.switchPorts ts on).links = s.links := by simp [State.switchPorts]
@[simp] theorem State.switchPorts_bg (ts : List TileId) (on : Bool) : (s.switchPorts ts on).bg = s.bg := by simp [State.switchPorts]
@[simp] theorem State.switchPorts_bgNow (ts : List TileId) (on : Bool) : (s.switchPorts ts on).bgNow = s.bgNow := by simp [State.switchPorts]
@[simp] theorem State.switchPorts_sdir (ts : List TileId) (on : Bool) : (s.switchPorts ts on).sdir = s.sdir := by simp [State.switchPorts]
@[simp] theorem State.switchPorts_store (ts : List TileId) (on : Bool) : (s.switchPorts ts on).store = s.store := by simp [State.switchPorts]
@[simp] theorem State.switchPorts_storeEpoch (ts : List TileId) (on : Bool) : (s.switchPorts ts on).storeEpoch = s.storeEpoch := by simp [State.switchPorts]
@[simp] theorem State.switchPorts_fsc (ts : List TileId) (on : Bool) : (s.switchPorts ts on).fsc = s.fsc := by simp [State.switchPorts]
@[simp] theorem State.switchPorts_ptab (ts : List TileId) (on : Bool) : (s.switchPorts ts on).ptab = s.ptab := by simp [State.switchPorts]
@[simp] theorem State.switchPorts_groups (ts : List TileId) (on : Bool) : (s.switchPorts ts on).groups = s.groups := by simp [State.switchPorts]
@[simp] theorem State.switchPorts_due (ts : List TileId) (on : Bool) : (s.switchPorts ts on).due = s.due := by simp [State.switchPorts]
@[simp] theorem State.switchPorts_csu (ts : List TileId) (on : Bool) : (s.switchPorts ts on).csu = s.csu := by simp [State.switchPorts]
@[simp] theorem State.switchPorts_cvb (ts : List TileId) (on : Bool) : (s.switchPorts ts on).cvb = s.cvb := by simp [State.switchPorts]
@[simp] theorem State.switchPorts_cbi (ts : List TileId) (on : Bool) : (s.switchPorts ts on).cbi = s.cbi := by simp [State.switchPorts]
@[simp] theorem State.switchPorts_freeCount (ts : List TileId) (on : Bool) : (s.switchPorts ts on).freeCount = s.freeCount := by simp [State.switchPorts]

/-! ### setCuePin -/

@[simp] theorem State.setCuePin_pending (c : CueId) (level : Bool) : (s.setCuePin c level).pending = s.pending := rfl
@[simp] theorem State.setCuePin_now (c : CueId) (level : Bool) : (s.setCuePin c level).now = s.now := rfl
@[simp] theorem State.setCuePin_phase (c : CueId) (level : Bool) : (s.setCuePin c level).phase = s.phase := rfl
@[simp] theorem State.setCuePin_startingEnd (c : CueId) (level : Bool) : (s.setCuePin c level).startingEnd = s.startingEnd := rfl
@[simp] theorem State.setCuePin_pins (c : CueId) (level : Bool) :
    (s.setCuePin c level).pins = { s.pins with cue := s.pins.cue.set c level } := rfl
@[simp] theorem State.setCuePin_clc (c : CueId) (level : Bool) : (s.setCuePin c level).clc = s.clc := rfl
@[simp] theorem State.setCuePin_rate (c : CueId) (level : Bool) : (s.setCuePin c level).rate = s.rate := rfl
@[simp] theorem State.setCuePin_rateNow (c : CueId) (level : Bool) : (s.setCuePin c level).rateNow = s.rateNow := rfl
@[simp] theorem State.setCuePin_geo (c : CueId) (level : Bool) : (s.setCuePin c level).geo = s.geo := rfl
@[simp] theorem State.setCuePin_held (c : CueId) (level : Bool) : (s.setCuePin c level).held = s.held := rfl
@[simp] theorem State.setCuePin_tiles (c : CueId) (level : Bool) : (s.setCuePin c level).tiles = s.tiles := rfl
@[simp] theorem State.setCuePin_ports (c : CueId) (level : Bool) : (s.setCuePin c level).ports = s.ports := rfl
@[simp] theorem State.setCuePin_frames (c : CueId) (level : Bool) : (s.setCuePin c level).frames = s.frames := rfl
@[simp] theorem State.setCuePin_cmp (c : CueId) (level : Bool) : (s.setCuePin c level).cmp = s.cmp := rfl
@[simp] theorem State.setCuePin_links (c : CueId) (level : Bool) : (s.setCuePin c level).links = s.links := rfl
@[simp] theorem State.setCuePin_bg (c : CueId) (level : Bool) : (s.setCuePin c level).bg = s.bg := rfl
@[simp] theorem State.setCuePin_bgNow (c : CueId) (level : Bool) : (s.setCuePin c level).bgNow = s.bgNow := rfl
@[simp] theorem State.setCuePin_sdir (c : CueId) (level : Bool) : (s.setCuePin c level).sdir = s.sdir := rfl
@[simp] theorem State.setCuePin_store (c : CueId) (level : Bool) : (s.setCuePin c level).store = s.store := rfl
@[simp] theorem State.setCuePin_storeEpoch (c : CueId) (level : Bool) : (s.setCuePin c level).storeEpoch = s.storeEpoch := rfl
@[simp] theorem State.setCuePin_fsc (c : CueId) (level : Bool) : (s.setCuePin c level).fsc = s.fsc := rfl
@[simp] theorem State.setCuePin_ptab (c : CueId) (level : Bool) : (s.setCuePin c level).ptab = s.ptab := rfl
@[simp] theorem State.setCuePin_groups (c : CueId) (level : Bool) : (s.setCuePin c level).groups = s.groups := rfl
@[simp] theorem State.setCuePin_due (c : CueId) (level : Bool) : (s.setCuePin c level).due = s.due := rfl
@[simp] theorem State.setCuePin_csu (c : CueId) (level : Bool) : (s.setCuePin c level).csu = s.csu := rfl
@[simp] theorem State.setCuePin_cvb (c : CueId) (level : Bool) : (s.setCuePin c level).cvb = s.cvb := rfl
@[simp] theorem State.setCuePin_cbi (c : CueId) (level : Bool) : (s.setCuePin c level).cbi = s.cbi := rfl
@[simp] theorem State.setCuePin_evb (c : CueId) (level : Bool) : (s.setCuePin c level).evb = s.evb := rfl
@[simp] theorem State.setCuePin_freeCount (c : CueId) (level : Bool) : (s.setCuePin c level).freeCount = s.freeCount := rfl

/-! ### startingFor -/

@[simp] theorem State.startingFor_pending (ticks : Nat) : (s.startingFor ticks).pending = s.pending := rfl
@[simp] theorem State.startingFor_now (ticks : Nat) : (s.startingFor ticks).now = s.now := rfl
@[simp] theorem State.startingFor_phase (ticks : Nat) : (s.startingFor ticks).phase = s.phase := rfl
@[simp] theorem State.startingFor_startingEnd (ticks : Nat) :
    (s.startingFor ticks).startingEnd = max s.startingEnd (s.now + ticks) := rfl
@[simp] theorem State.startingFor_pins (ticks : Nat) : (s.startingFor ticks).pins = s.pins := rfl
@[simp] theorem State.startingFor_clc (ticks : Nat) : (s.startingFor ticks).clc = s.clc := rfl
@[simp] theorem State.startingFor_rate (ticks : Nat) : (s.startingFor ticks).rate = s.rate := rfl
@[simp] theorem State.startingFor_rateNow (ticks : Nat) : (s.startingFor ticks).rateNow = s.rateNow := rfl
@[simp] theorem State.startingFor_geo (ticks : Nat) : (s.startingFor ticks).geo = s.geo := rfl
@[simp] theorem State.startingFor_held (ticks : Nat) : (s.startingFor ticks).held = s.held := rfl
@[simp] theorem State.startingFor_tiles (ticks : Nat) : (s.startingFor ticks).tiles = s.tiles := rfl
@[simp] theorem State.startingFor_ports (ticks : Nat) : (s.startingFor ticks).ports = s.ports := rfl
@[simp] theorem State.startingFor_frames (ticks : Nat) : (s.startingFor ticks).frames = s.frames := rfl
@[simp] theorem State.startingFor_cmp (ticks : Nat) : (s.startingFor ticks).cmp = s.cmp := rfl
@[simp] theorem State.startingFor_links (ticks : Nat) : (s.startingFor ticks).links = s.links := rfl
@[simp] theorem State.startingFor_bg (ticks : Nat) : (s.startingFor ticks).bg = s.bg := rfl
@[simp] theorem State.startingFor_bgNow (ticks : Nat) : (s.startingFor ticks).bgNow = s.bgNow := rfl
@[simp] theorem State.startingFor_sdir (ticks : Nat) : (s.startingFor ticks).sdir = s.sdir := rfl
@[simp] theorem State.startingFor_store (ticks : Nat) : (s.startingFor ticks).store = s.store := rfl
@[simp] theorem State.startingFor_storeEpoch (ticks : Nat) : (s.startingFor ticks).storeEpoch = s.storeEpoch := rfl
@[simp] theorem State.startingFor_fsc (ticks : Nat) : (s.startingFor ticks).fsc = s.fsc := rfl
@[simp] theorem State.startingFor_ptab (ticks : Nat) : (s.startingFor ticks).ptab = s.ptab := rfl
@[simp] theorem State.startingFor_groups (ticks : Nat) : (s.startingFor ticks).groups = s.groups := rfl
@[simp] theorem State.startingFor_due (ticks : Nat) : (s.startingFor ticks).due = s.due := rfl
@[simp] theorem State.startingFor_csu (ticks : Nat) : (s.startingFor ticks).csu = s.csu := rfl
@[simp] theorem State.startingFor_cvb (ticks : Nat) : (s.startingFor ticks).cvb = s.cvb := rfl
@[simp] theorem State.startingFor_cbi (ticks : Nat) : (s.startingFor ticks).cbi = s.cbi := rfl
@[simp] theorem State.startingFor_evb (ticks : Nat) : (s.startingFor ticks).evb = s.evb := rfl
@[simp] theorem State.startingFor_freeCount (ticks : Nat) : (s.startingFor ticks).freeCount = s.freeCount := rfl

/-! ### The frame store controller's own updates -/

section

variable (f : Fsc) (t : TileId)

@[simp] theorem Fsc.dropFetch_fetches : (f.dropFetch t).fetches = f.fetches.set t none := rfl
@[simp] theorem Fsc.dropFetch_upload : (f.dropFetch t).upload = f.upload := rfl
@[simp] theorem Fsc.dropFetch_burst : (f.dropFetch t).burst = f.burst := rfl
@[simp] theorem Fsc.dropFetch_serving : (f.dropFetch t).serving = if f.serving = some t then none else f.serving := rfl
@[simp] theorem Fsc.cancelFetch_fetches : (f.cancelFetch t).fetches = f.fetches.set t none := rfl
@[simp] theorem Fsc.cancelFetch_upload : (f.cancelFetch t).upload = f.upload := rfl
@[simp] theorem Fsc.cancelFetch_burst : (f.cancelFetch t).burst = f.burst.map (Burst.cancelledFor t) := rfl
@[simp] theorem Fsc.cancelFetch_serving : (f.cancelFetch t).serving = if f.serving = some t then none else f.serving := rfl
@[simp] theorem Fsc.cancelFetches_fetches : f.cancelFetches.fetches = Table.replicate 16 none := rfl
@[simp] theorem Fsc.cancelFetches_upload : f.cancelFetches.upload = f.upload := rfl
@[simp] theorem Fsc.cancelFetches_burst : f.cancelFetches.burst = f.burst.map Burst.cancelled := rfl
@[simp] theorem Fsc.cancelFetches_serving : f.cancelFetches.serving = none := rfl
@[simp] theorem Fsc.grantFetch_fetches (now : Nat) (g : Fetch) : (f.grantFetch now t g).fetches = f.fetches := rfl
@[simp] theorem Fsc.grantFetch_upload (now : Nat) (g : Fetch) : (f.grantFetch now t g).upload = f.upload := rfl
@[simp] theorem Fsc.grantFetch_serving (now : Nat) (g : Fetch) : (f.grantFetch now t g).serving = some t := rfl
@[simp] theorem Fsc.grantLoad_fetches (now : Nat) (u : UploadWrite) : (f.grantLoad now u).fetches = f.fetches := rfl
@[simp] theorem Fsc.grantLoad_upload (now : Nat) (u : UploadWrite) : (f.grantLoad now u).upload = f.upload := rfl
@[simp] theorem Fsc.grantLoad_serving (now : Nat) (u : UploadWrite) : (f.grantLoad now u).serving = f.serving := rfl

end

end Sys2Proof.Machine
end

