-- ==== Sys2Proof/Laws/Link.lean ====
section
/-! SUPPORT. What the command link controller makes of a frame: one lemma with every outcome, one for a command that is taken; what
moves GIN. -/

namespace Sys2Proof.Machine

/-- Every outcome of a frame: nothing; an overrun; a refusal by tests 1 to 5; or the command's own effect. -/
theorem State.receive_cases (bytes : List Byte) (unit code : Nat) (refusal : Option Status) (op : CommandOp) (s : State) :
    s.receive bytes unit code refusal op = s
    ∨ (s.phase ≠ .starting ∧ s.clc.executing ≠ none ∧ s.receive bytes unit code refusal op = s.overrunBy unit code)
    ∨ (s.phase ≠ .starting ∧ s.clc.executing = none ∧ ∃ status, s.receive bytes unit code refusal op
        = (s.takeFrame bytes).deliver code (decide (unit = broadcastUnit)) false status .empty)
    ∨ (s.phase ≠ .starting ∧ s.clc.executing = none ∧ phaseRefuses s.phase code = false
        ∧ s.receive bytes unit code refusal op
          = State.finish code (decide (unit = broadcastUnit)) (op (s.takeFrame bytes))) := by
  unfold State.receive
  split
  · exact .inl rfl
  · next hp =>
    split
    · exact .inl rfl
    · split
      · next he =>
        refine .inr (.inl ⟨hp, ?_, rfl⟩)
        intro h; simp [h] at he
      · next he =>
        have he' : s.clc.executing = none := by simpa using he
        cases refusal with
        | some status => exact .inr (.inr (.inl ⟨hp, he', status, rfl⟩))
        | none =>
          by_cases hr : phaseRefuses s.phase code = true
          · simp only [hr, if_true]
            exact .inr (.inr (.inl ⟨hp, he', .wrongPhase, rfl⟩))
          · simp only [hr]
            exact .inr (.inr (.inr ⟨hp, he', trivial, rfl⟩))

/-- A property that reads of the link only its straps, and nothing of the event block, is kept by every frame whose command keeps
it. -/
theorem State.receive_keeps {P : State → Prop} {bytes : List Byte} {unit code : Nat} {refusal : Option Status}
    {op : CommandOp} {s : State} (hs : P s)
    (hclc : ∀ (t : State) (c : Clc), c.straps = t.clc.straps → P t → P { t with clc := c })
    (hevb : ∀ (t : State) (e : Evb), P t → P { t with evb := e })
    (hop : s.phase ≠ .starting → s.clc.executing = none → P (op (s.takeFrame bytes)).1) :
    P (s.receive bytes unit code refusal op) := by
  have htake : P (s.takeFrame bytes) := hclc s _ rfl hs
  rcases s.receive_cases bytes unit code refusal op with h | ⟨_, _, h⟩ | ⟨_, _, status, h⟩ | ⟨hp, he, _, h⟩
  · rw [h]; exact hs
  · rw [h]
    exact hevb _ _ (hclc s { s.clc with executing := s.clc.executing.map Executing.marked } rfl hs)
  · rw [h]; exact hclc _ _ rfl htake
  · rw [h]
    have := hop hp he
    unfold State.finish
    split
    · exact hclc _ _ rfl this
    · exact hclc _ _ rfl this
    · exact this

/-! ### The grant input -/

/-- A POLL on the link moves GIN and its count alone (R191). -/
@[simp] theorem State.hears_pollFrame (s : State) :
    s.hears pollFrame = { s with
      pins := s.pins.ginAfterPoll (Config.goutBeforeStays s.freeCount)
      freeCount := s.freeCount + 1 } := if_pos rfl

/-- Any other frame leaves GIN. -/
theorem State.hears_other (s : State) {bytes : List Byte} (h : bytes ≠ pollFrame) : s.hears bytes = s := if_neg h

/-- POLL's own frame to all units is the one that moves GIN. -/
theorem encodeFrame_poll : encodeFrame 15 .poll = pollFrame := by decide

/-- A frame whose command code is not POLL's leaves GIN. -/
theorem encodeFrame_ne_pollFrame {unit : Nat} {c : HostCmd} (h : c.code % 256 ≠ 32) : encodeFrame unit c ≠ pollFrame := by
  intro he
  have := congrArg (fun l : List Byte => l[1]?.map BitVec.toNat) he
  simp [encodeFrame, pollFrame, leBytes] at this
  omega

/-- The grant's arrival makes GIN read asserted. -/
@[simp] theorem Pins.ginRisen_reads (p : Pins) : p.ginRisen.ginReads = true := by
  obtain ⟨_, _, _, _, g⟩ := p; cases g <;> rfl

/-- What GIN reads after a POLL on the link. -/
theorem Pins.ginAfterPoll_reads (stays : Bool) (p : Pins) :
    (p.ginAfterPoll stays).ginReads = (p.ginReads && (decide (p.gin = .tied) || stays)) := by
  obtain ⟨_, _, _, _, g⟩ := p; cases g <;> simp [Pins.ginAfterPoll, Pins.ginReads]

/-- GIN's level and nothing else of the pins is moved. -/
theorem Pins.ginMoves (stays : Bool) (p : Pins) :
    p.ginRisen = { p with gin := p.ginRisen.gin } ∧ p.ginAfterPoll stays = { p with gin := (p.ginAfterPoll stays).gin } := by
  obtain ⟨_, _, _, _, g⟩ := p; cases g <;> exact ⟨rfl, rfl⟩

/-- Test 3 of R178 passes where a data-returning command is not broadcast and POLL is. -/
theorem wrongAddressing_eq_false {unit code : Nat} (hd : unit = 15 → code ∉ [1, 2, 16, 17, 21, 22, 26, 30])
    (hq : unit ≠ 15 → code ≠ 32) : wrongAddressing unit code = false := by
  by_cases h : unit = 15
  · subst h
    simpa [wrongAddressing, dataReturning, show broadcastUnit = 15 from rfl] using hd rfl
  · have hu : unit ≠ broadcastUnit := h
    simp [wrongAddressing, hu, hq h]

/-- A frame that is taken runs its command (R177 to R179). -/
theorem State.hostCommand_taken {s : State} {unit : Nat} {c : HostCmd} {op : CommandOp} (h : s.Takes unit c.code)
    (hl : c.payload.length ≤ 4101) :
    s.hostCommand unit c op
      = State.finish c.code (decide (unit = 15)) (op (s.takeFrame (encodeFrame unit c))) := by
  obtain ⟨hp, he, hu, hd, hq, hc, hr⟩ := h
  have hunit : s.forThisPart unit = true := by
    simp only [State.forThisPart, Bool.or_eq_true, decide_eq_true_eq]
    exact hu
  have hrefuse : hostRefusal unit c = none := by
    simp [hostRefusal, wrongAddressing_eq_false hd hq, Nat.not_lt.2 hl]
  have hphase : phaseRefuses s.phase c.code = false := by
    cases hph : s.phase with
    | starting => exact absurd hph hp
    | config => simpa [phaseRefuses] using hc hph
    | running => simpa [phaseRefuses, and_assoc] using hr hph
  simp only [State.hostCommand, State.receive, if_neg hp, hunit, he, hrefuse, hphase]
  rfl

/-- The answer of a taken command whose result comes at once. -/
theorem State.hostCommand_done {s t : State} {unit : Nat} {c : HostCmd} {op : CommandOp} {status : Status} {p : Payload}
    (h : s.Takes unit c.code) (hl : c.payload.length ≤ 4101)
    (hop : op (s.takeFrame (encodeFrame unit c)) = (t, .done status p))
    (hresp : t.clc.response = none) :
    s.hostCommand unit c op = { t with clc := { t.clc with
      executing := none
      response := if unit = 15 then none else some ⟨status, c.code, false, p⟩
      lastBroadcast := if unit = 15 then some (c.code, status) else t.clc.lastBroadcast } } := by
  rw [State.hostCommand_taken h hl, hop]
  by_cases hu : unit = 15 <;> simp [State.finish, State.deliver, hu, hresp]

end Sys2Proof.Machine
end

