-- ==== Sys2Proof/Laws/Memory.lean ====
section
/-! SUPPORT. The frame store's contents as a list of cells: a read after a write, and that every operation keeps the canonical
form. -/

namespace Sys2Proof.Machine

@[simp] theorem Memory.wf_nil : Memory.wf [] := List.Pairwise.nil

/-- The address of every cell after a write is an old one or the one written. -/
theorem Memory.mem_write {m : List Host.Cell} {a : Nat} {b : Byte} {c : Host.Cell} (h : c ∈ Memory.write m a b) :
    c ∈ m ∨ c = (a, b) := by
  induction m with
  | nil => simpa [Memory.write] using h
  | cons d m ih =>
    simp only [Memory.write] at h
    split at h
    · simp only [List.mem_cons] at h ⊢; tauto
    · split at h
      · simp only [List.mem_cons] at h ⊢; tauto
      · rcases List.mem_cons.1 h with rfl | h
        · simp
        · rcases ih h with h | h
          · simp [h]
          · exact .inr h

/-- A write keeps the canonical form. -/
theorem Memory.write_wf {m : List Host.Cell} (h : Memory.wf m) (a : Nat) (b : Byte) : Memory.wf (Memory.write m a b) := by
  induction m with
  | nil => simp [Memory.write, Memory.wf]
  | cons d m ih =>
    obtain ⟨hd, hm⟩ := List.pairwise_cons.1 h
    simp only [Memory.write]
    split
    · next lt =>
      refine List.pairwise_cons.2 ⟨fun c hc => ?_, h⟩
      rcases List.mem_cons.1 hc with rfl | hc
      · exact lt
      · exact lt.trans (hd c hc)
    · next ge =>
      split
      · next eq => exact List.pairwise_cons.2 ⟨fun c hc => by have := hd c hc; simpa [eq] using this, hm⟩
      · next ne =>
        refine List.pairwise_cons.2 ⟨fun c hc => ?_, ih hm⟩
        rcases Memory.mem_write hc with hc | rfl
        · exact hd c hc
        · show d.1 < a
          omega

/-- Writing consecutive bytes keeps the canonical form. -/
theorem Memory.writeBytes_wf (bs : List Byte) :
    ∀ {m : List Host.Cell} (_ : Memory.wf m) (a : Nat), Memory.wf (Memory.writeBytes m a bs) := by
  induction bs with
  | nil => intro m h a; exact h
  | cons b bs ih => intro m h a; exact ih (Memory.write_wf h a b) (a + 1)

/-- Every cell after writing consecutive bytes is an old one or lies among them. -/
theorem Memory.mem_writeBytes (bs : List Byte) :
    ∀ {m : List Host.Cell} {a : Nat} {c : Host.Cell}, c ∈ Memory.writeBytes m a bs →
      c ∈ m ∨ (a ≤ c.1 ∧ c.1 < a + bs.length) := by
  induction bs with
  | nil => intro m a c h; exact .inl h
  | cons b bs ih =>
    intro m a c h
    rcases ih h with h | h
    · rcases Memory.mem_write h with h | rfl
      · exact .inl h
      · right; simp
    · right; simp only [List.length_cons]; omega

/-- Forgetting bytes keeps the canonical form. -/
theorem Memory.forget_wf {m : List Host.Cell} (h : Memory.wf m) (a n : Nat) : Memory.wf (Memory.forget m a n) :=
  List.Pairwise.filter _ h

theorem Memory.mem_forget {m : List Host.Cell} {a n : Nat} {c : Host.Cell} (h : c ∈ Memory.forget m a n) : c ∈ m :=
  (List.mem_filter.1 h).1

/-- Below every listed address there is nothing to read. -/
theorem Memory.read_below {m : List Host.Cell} {a : Nat} (h : ∀ c ∈ m, a < c.1) : Memory.read m a = none := by
  induction m with
  | nil => rfl
  | cons c m ih =>
    have hc : a < c.1 := h c (by simp)
    simp only [Memory.read, if_neg (Nat.ne_of_gt hc)]
    exact ih fun d hd => h d (by simp [hd])

/-- A read after a write: the byte written at its address, elsewhere what was there. -/
theorem Memory.read_write {m : List Host.Cell} (h : Memory.wf m) (a x : Nat) (b : Byte) :
    Memory.read (Memory.write m a b) x = if x = a then some b else Memory.read m x := by
  induction m with
  | nil => by_cases hx : a = x <;> simp [Memory.write, Memory.read, hx, eq_comm]
  | cons d m ih =>
    obtain ⟨hd, hm⟩ := List.pairwise_cons.1 h
    simp only [Memory.write]
    split
    · simp only [Memory.read, eq_comm]
    · split
      · next eq =>
        by_cases hx : x = a
        · simp [Memory.read, hx]
        · have h1 : ¬ d.1 = x := fun e => hx (by omega)
          have h2 : ¬ a = x := fun e => hx e.symm
          simp [Memory.read, hx, h1, h2]
      · next ne =>
        simp only [Memory.read, ih hm]
        by_cases hx : x = a
        · have : ¬ d.1 = x := fun e => ne (by omega)
          simp [hx] at this ⊢
          intro e; omega
        · simp [hx]

/-- A read after consecutive bytes are written: the byte written where the address lies among them, elsewhere what was there. -/
theorem Memory.read_writeBytes (bs : List Byte) :
    ∀ {m : List Host.Cell} (_ : Memory.wf m) (a x : Nat),
      Memory.read (Memory.writeBytes m a bs) x
        = if a ≤ x ∧ x < a + bs.length then bs[x - a]? else Memory.read m x := by
  induction bs with
  | nil => intro m _ a x; simp [Memory.writeBytes]
  | cons b bs ih =>
    intro m h a x
    rw [Memory.writeBytes, ih (Memory.write_wf h a b), Memory.read_write h]
    by_cases h1 : x = a
    · subst h1
      have : ¬ (x + 1 ≤ x) := by omega
      simp [this]
    · by_cases h2 : a + 1 ≤ x ∧ x < a + 1 + bs.length
      · have h3 : a ≤ x ∧ x < a + (b :: bs).length := by simp only [List.length_cons]; omega
        rw [if_pos h2, if_pos h3]
        have : x - a = (x - (a + 1)) + 1 := by omega
        rw [this, List.getElem?_cons_succ]
      · have h3 : ¬ (a ≤ x ∧ x < a + (b :: bs).length) := by simp only [List.length_cons]; omega
        rw [if_neg h2, if_neg h3, if_neg h1]

end Sys2Proof.Machine
end

