-- ==== Sys2Proof/Laws/Table.lean ====
section
/-! SUPPORT. Reading a row of a table after each way of making one; counting over a table's rows. -/

namespace Sys2Proof

variable {α β : Type} {n : Nat}

/-- Tables with equal rows are equal. -/
theorem Table.ext_get {t u : Table α n} (h : ∀ i, t.get i = u.get i) : t = u := by
  obtain ⟨a, ha⟩ := t
  obtain ⟨b, hb⟩ := u
  simp only [Table.mk.injEq]
  apply List.ext_getElem (by omega)
  intro i hi _
  exact h ⟨i, by omega⟩

@[simp] theorem Table.get_replicate (a : α) (i : Fin n) : (Table.replicate n a).get i = a := by
  simp [Table.get, Table.replicate]

@[simp] theorem Table.get_set_self (t : Table α n) (i : Fin n) (a : α) : (t.set i a).get i = a := by
  simp [Table.get, Table.set]

theorem Table.get_set (t : Table α n) (i j : Fin n) (a : α) : (t.set i a).get j = if i = j then a else t.get j := by
  simp only [Table.get, Table.set, List.getElem_set, Fin.ext_iff]

theorem Table.get_set_ne (t : Table α n) {i j : Fin n} (a : α) (h : i ≠ j) : (t.set i a).get j = t.get j := by
  simp [Table.get_set, h]

theorem Table.get_modify (t : Table α n) (i j : Fin n) (f : α → α) :
    (t.modify i f).get j = if i = j then f (t.get j) else t.get j := by
  unfold Table.modify
  rw [Table.get_set]
  split
  · next h => rw [h]
  · rfl

@[simp] theorem Table.get_modify_self (t : Table α n) (i : Fin n) (f : α → α) : (t.modify i f).get i = f (t.get i) := by
  simp [Table.get_modify]

theorem Table.get_modify_ne (t : Table α n) {i j : Fin n} (f : α → α) (h : i ≠ j) :
    (t.modify i f).get j = t.get j := by
  simp [Table.get_modify, h]

/-- The later of two writes to one row stands. -/
@[simp] theorem Table.set_set (t : Table α n) (i : Fin n) (a b : α) : (t.set i a).set i b = t.set i b := by
  simp [Table.set]

@[simp] theorem Table.get_mapIdx (f : Fin n → α → β) (t : Table α n) (i : Fin n) :
    (Table.mapIdx f t).get i = f i (t.get i) := by
  simp [Table.get, Table.mapIdx]

@[simp] theorem Table.get_ofFn (f : Fin n → α) (i : Fin n) : (Table.ofFn f).get i = f i := by
  simp [Table.get, Table.ofFn]

/-- The rows are the values of `get` in order. -/
theorem Table.rows_eq (t : Table α n) : t.rows = (List.finRange n).map t.get := by
  apply List.ext_getElem
  · simp [t.len]
  · intro i h1 h2
    simp [Table.get]

/-- The numbered rows are the numbers with the values of `get`. -/
theorem Table.entries_eq (t : Table α n) : t.entries = (List.finRange n).map fun i => (i, t.get i) := by
  unfold Table.entries
  rw [t.rows_eq]
  apply List.ext_getElem <;> simp

theorem Table.mem_rows {t : Table α n} {a : α} : a ∈ t.rows ↔ ∃ i, t.get i = a := by
  rw [t.rows_eq]
  simp

theorem Table.get_mem_rows (t : Table α n) (i : Fin n) : t.get i ∈ t.rows := Table.mem_rows.2 ⟨i, rfl⟩

/-- Replacing one element of a list of lists moves a count by the difference of the two. -/
theorem count_flatMap_set [DecidableEq β] (f : α → List β) (a : α) (b : β) :
    ∀ (rows : List α) (k : Nat) (hk : k < rows.length),
      ((rows.set k a).flatMap f).count b + (f rows[k]).count b = (rows.flatMap f).count b + (f a).count b
  | [], _, hk => by simp at hk
  | r :: rows, 0, _ => by simp; omega
  | r :: rows, k + 1, hk => by
    have := count_flatMap_set f a b rows k (by simpa using hk)
    simp only [List.set_cons_succ, List.flatMap_cons, List.count_append, List.getElem_cons_succ]
    omega

/-- Replacing one row of a table of lists moves a count by the difference of the two rows. -/
theorem Table.count_set [DecidableEq β] (f : α → List β) (t : Table α n) (i : Fin n) (a : α) (b : β) :
    ((t.set i a).rows.flatMap f).count b + (f (t.get i)).count b
      = (t.rows.flatMap f).count b + (f a).count b :=
  count_flatMap_set f a b t.rows i.val (by rw [t.len]; exact i.isLt)

/-- A count over a table's rows is the count over its numbers. -/
theorem Table.count_flatMap [DecidableEq β] (f : α → List β) (t : Table α n) (b : β) :
    (t.rows.flatMap f).count b = ((List.finRange n).flatMap fun i => f (t.get i)).count b := by
  rw [t.rows_eq, List.flatMap_map]

end Sys2Proof
end

