-- ==== Sys2Proof/Laws/Ops.lean ====
section
/-! SUPPORT. What each shared operation that is built from others can do, said once: the fields it may change, and its outcomes. -/

namespace Sys2Proof.Machine

/-! ### Reports -/

/-- The order of reports keeps what reports. -/
theorem mem_inReportOrder {α : Type} {now : Nat} {number : α → Nat} {l : List α} {a : α} :
    a ∈ inReportOrder now number l ↔ a ∈ l := (List.perm_insertionSort _ l).mem_iff

/-- A report made at a boundary or by a switch of the ports is that of some tile. -/
theorem State.mem_tileReports {s : State} {reports : TileId → List Detail} {d : Detail} :
    d ∈ s.tileReports reports ↔ ∃ t, d ∈ reports t := by
  simp only [State.tileReports, List.mem_flatMap, mem_inReportOrder, List.mem_filter, List.mem_finRange, true_and]
  constructor
  · rintro ⟨t, _, h⟩
    exact ⟨t, h⟩
  · rintro ⟨t, h⟩
    refine ⟨t, ?_, h⟩
    cases hr : reports t with
    | nil => rw [hr] at h; cases h
    | cons a l => rfl

/-- Reports to other flags leave a flag as it was. -/
theorem State.reportAll_get_of_ne (s : State) (ds : List Detail) {i : Fin 16} (h : ∀ d ∈ ds, d.flag ≠ i) :
    (s.reportAll ds).evb.flags.get i = s.evb.flags.get i := by
  rw [State.reportAll_evb]
  split
  · rfl
  · induction ds generalizing s with
    | nil => rfl
    | cons d ds ih =>
      have := ih { s with evb := s.evb.record d } (fun x hx => h x (List.mem_cons_of_mem _ hx)) ‹_›
      exact this.trans (Table.get_set_ne _ _ (h d List.mem_cons_self))

/-! ### The frame store controller -/

/-- The grant rule grants nothing, the earliest fetch, or a load burst, and touches neither queue (R140). -/
theorem Fsc.granted_cases (now : Nat) (f : Fsc) :
    f.granted now = f ∨ (∃ t g, f.earliest = some (t, g) ∧ f.granted now = f.grantFetch now t g)
      ∨ ∃ u, f.upload = some u ∧ f.granted now = f.grantLoad now u := by
  unfold Fsc.granted
  split
  · exact .inl rfl
  · split
    · split
      · next h => exact .inr (.inl ⟨_, _, h, rfl⟩)
      · exact .inl rfl
    · next u hu =>
      split
      · exact .inr (.inr ⟨u, hu, rfl⟩)
      · split
        · next h => exact .inr (.inl ⟨_, _, h, rfl⟩)
        · split
          · exact .inr (.inr ⟨u, hu, rfl⟩)
          · exact .inl rfl

theorem Fsc.granted_fetches (now : Nat) (f : Fsc) : (f.granted now).fetches = f.fetches := by
  rcases f.granted_cases now with h | ⟨t, g, _, h⟩ | ⟨u, _, h⟩ <;> rw [h] <;> rfl

theorem Fsc.granted_upload (now : Nat) (f : Fsc) : (f.granted now).upload = f.upload := by
  rcases f.granted_cases now with h | ⟨t, g, _, h⟩ | ⟨u, _, h⟩ <;> rw [h] <;> rfl

theorem Fsc.granted_pacing (now : Nat) (f : Fsc) : (f.granted now).pacing = f.pacing := by
  rcases f.granted_cases now with h | ⟨t, g, _, h⟩ | ⟨u, _, h⟩ <;> rw [h] <;> rfl

/-- The search for the next fetch finds one that waits, due no later than any other (R140). -/
theorem foldl_earlierFetch (l : List (TileId × Option Fetch)) (best : Option (TileId × Fetch)) :
    (l.foldl earlierFetch best = none ↔ best = none ∧ ∀ e ∈ l, e.2 = none)
      ∧ ∀ t g, l.foldl earlierFetch best = some (t, g) →
        (best = some (t, g) ∨ (t, some g) ∈ l) ∧ (∀ v h, best = some (v, h) → g.due ≤ h.due)
          ∧ ∀ v h, (v, some h) ∈ l → g.due ≤ h.due := by
  induction l generalizing best with
  | nil => exact ⟨by simp, fun t g h => ⟨.inl h, fun v k hk => by cases h.symm.trans hk; exact Nat.le_refl _, by simp⟩⟩
  | cons e l ih =>
    obtain ⟨u, o⟩ := e
    obtain ⟨none', some'⟩ := ih (earlierFetch best (u, o))
    rw [List.foldl_cons]
    cases o with
    | none =>
      refine ⟨by simpa [earlierFetch] using none', fun t g h => ?_⟩
      simpa [earlierFetch] using some' t g h
    | some k =>
      cases best with
      | none =>
        refine ⟨by simpa [earlierFetch] using none', fun t g h => ?_⟩
        obtain ⟨hm, hb, hl⟩ := some' t g h
        refine ⟨.inr ?_, by simp, fun v x hx => ?_⟩
        · rcases hm with hm | hm
          · cases hm; exact List.mem_cons_self
          · exact List.mem_cons_of_mem _ hm
        · rcases List.mem_cons.1 hx with hx | hx
          · cases hx; exact hb _ _ rfl
          · exact hl _ _ hx
      | some b =>
        obtain ⟨w, y⟩ := b
        by_cases hd : k.due < y.due
        · simp only [earlierFetch, hd, if_true] at none' some' ⊢
          refine ⟨by simp at none' ⊢; exact none', fun t g h => ?_⟩
          obtain ⟨hm, hb, hl⟩ := some' t g h
          have hk := hb _ _ rfl
          refine ⟨?_, fun v x hx => by cases hx; omega, fun v x hx => ?_⟩
          · rcases hm with hm | hm
            · cases hm; exact .inr List.mem_cons_self
            · exact .inr (List.mem_cons_of_mem _ hm)
          · rcases List.mem_cons.1 hx with hx | hx
            · cases hx; exact hk
            · exact hl _ _ hx
        · simp only [earlierFetch, hd, if_false] at none' some' ⊢
          refine ⟨by simp at none' ⊢; exact none', fun t g h => ?_⟩
          obtain ⟨hm, hb, hl⟩ := some' t g h
          have hk := hb _ _ rfl
          refine ⟨?_, fun v x hx => by cases hx; exact hk, fun v x hx => ?_⟩
          · rcases hm with hm | hm
            · exact .inl hm
            · exact .inr (List.mem_cons_of_mem _ hm)
          · rcases List.mem_cons.1 hx with hx | hx
            · cases hx; omega
            · exact hl _ _ hx

theorem Fsc.mem_entries {f : Fsc} {t : TileId} {o : Option Fetch} : (t, o) ∈ f.fetches.entries ↔ f.fetches.get t = o := by
  simp [Table.entries_eq]

/-- The fetch chosen waits in the queue and no other is due earlier; none is chosen where none waits (R140). -/
theorem Fsc.earliest_cases (f : Fsc) :
    (f.earliest = none ∧ ∀ t, f.fetches.get t = none)
      ∨ ∃ t g, f.earliest = some (t, g) ∧ f.fetches.get t = some g ∧ ∀ v h, f.fetches.get v = some h → g.due ≤ h.due := by
  have hs : ∀ t g, f.served = some (t, g) → f.fetches.get t = some g := by
    intro t g h
    simp only [Fsc.served, Option.bind_eq_some_iff, Option.map_eq_some_iff, Prod.mk.injEq] at h
    obtain ⟨u, _, k, hk, rfl, rfl⟩ := h
    exact hk
  obtain ⟨none', some'⟩ := foldl_earlierFetch f.fetches.entries f.served
  cases he : f.earliest with
  | none => exact .inl ⟨rfl, fun t => (none'.1 he).2 _ (Fsc.mem_entries.2 rfl)⟩
  | some p =>
    obtain ⟨hm, _, hl⟩ := some' p.1 p.2 he
    exact .inr ⟨p.1, p.2, rfl, hm.elim (hs _ _) Fsc.mem_entries.1, fun v h hv => hl v h (Fsc.mem_entries.2 hv)⟩

/-- A fetch that is served keeps the store while no other is due earlier (R140). -/
theorem Fsc.earliest_served {f : Fsc} {t : TileId} {g : Fetch} (hs : f.serving = some t) (hg : f.fetches.get t = some g)
    (hd : ∀ v h, f.fetches.get v = some h → g.due ≤ h.due) : f.earliest = some (t, g) := by
  have keep : ∀ l : List (TileId × Option Fetch), (∀ v h, (v, some h) ∈ l → g.due ≤ h.due) →
      l.foldl earlierFetch (some (t, g)) = some (t, g) := by
    intro l
    induction l with
    | nil => exact fun _ => rfl
    | cons e l ih =>
      obtain ⟨v, o⟩ := e
      intro h
      have hl := ih fun v k hk => h v k (List.mem_cons_of_mem _ hk)
      cases o with
      | none => exact hl
      | some k =>
        have := h v k List.mem_cons_self
        simpa [earlierFetch, Nat.not_lt.2 this] using hl
  have served : f.served = some (t, g) := by simp [Fsc.served, hs, hg]
  unfold Fsc.earliest
  rw [served]
  exact keep _ fun v h hv => hd v h (Fsc.mem_entries.1 hv)

/-! ### Fields that composed operations may change -/

/-- Requests of lines change the store controller and the lines formed, and nothing else (R138). -/
theorem State.foldl_requestLine_eq (ts : List TileId) (py : Nat) (s : State) :
    let u := ts.foldl (fun s t => s.requestLine t py) s
    u = { s with fsc := u.fsc, cmp := u.cmp } := by
  induction ts generalizing s with
  | nil => rfl
  | cons t ts ih => exact ih (s.requestLine t py)

/-- What the end of a boundary may change (R91). -/
theorem State.closeBoundary_eq (s : State) :
    s.closeBoundary = { s with
      ports := s.closeBoundary.ports, frames := s.closeBoundary.frames, links := s.closeBoundary.links
      cmp := s.closeBoundary.cmp, fsc := s.closeBoundary.fsc, evb := s.closeBoundary.evb } := by
  have h := State.foldl_requestLine_eq (List.finRange 16) 0
    (((s.stepPorts).report (.frameTick s.csu.frame)).openFrames s.ports)
  have hc : s.closeBoundary
      = (((s.stepPorts).report (.frameTick s.csu.frame)).openFrames s.ports).requestFirstLines.grant := rfl
  rw [hc]
  unfold State.requestFirstLines
  rw [h]
  rfl

/-- What a port's own boundary may change (entry 13). -/
theorem State.portBoundary_eq (t : TileId) (s : State) :
    s.portBoundary t = { s with
      ports := s.ports.set t (s.portStep t).1
      frames := s.frames.set t ((s.changePort t (s.portStep t)).openFrameOf s.ports t)
      cmp := s.cmp.modify t fun c => { c with formed := none }
      fsc := s.fsc.cancelFetch t
      evb := (s.changePort t (s.portStep t)).evb } := rfl

/-- A frame boundary that leaves a port out of UP, and did not find it waiting for its BLACK frame, gives the kind NONE (R160). -/
theorem State.decideKind_none {old : Table Port 16} {s : State} {t : TileId} (hd : ∀ r, (old.get t).state ≠ .draining .beforeBlack r)
    (hu : (s.ports.get t).state ≠ .up) : s.decideKind old t = .none := by
  unfold State.decideKind
  split
  · next h => exact absurd h (hd _)
  · rw [if_neg hu]

/-- A port that is not UP or DRAINING carries no frame; only TRAINING carries the pattern (R151). -/
theorem State.linkDrive_frame {s : State} {t : TileId} {k : FrameKind} (h : s.linkDrive t = .frame k) :
    (s.frames.get t).kind = k ∧ k ≠ .none ∧ ((s.ports.get t).state = .up ∨ ∃ d r, (s.ports.get t).state = .draining d r) := by
  unfold State.linkDrive at h
  split at h <;> (try cases h) <;> (split at h <;> cases h)
  · exact ⟨rfl, ‹_›, .inl ‹_›⟩
  · exact ⟨rfl, ‹_›, .inr ⟨_, _, ‹_›⟩⟩

/-- What a part that awaits the grant makes of it (R191). -/
theorem State.takeGrant_cases (s : State) :
    (s.wantsAttention = true
        ∧ s.takeGrant = { s.clc with grant := .holding, pollAnswer := some (.flags s.clc.straps.unit s.evb.flagsSet) })
      ∨ (s.wantsAttention = false ∧ s.clc.straps.chainEnd = true
        ∧ s.takeGrant = { s.clc with grant := .holding, pollAnswer := some .none })
      ∨ (s.wantsAttention = false ∧ s.clc.straps.chainEnd = false ∧ s.takeGrant = { s.clc with grant := .passing }) := by
  unfold State.takeGrant
  cases s.wantsAttention <;> cases s.clc.straps.chainEnd <;> simp

/-- Making groups DUE moves the groups and the queue alone (R73). -/
theorem State.makeAllDue_eq (gs : List GroupId) (s : State) :
    s.makeAllDue gs = { s with groups := (s.makeAllDue gs).groups, due := s.due ++ gs } := by
  induction gs generalizing s with
  | nil => simp [State.makeAllDue]
  | cons g gs ih =>
    have h := ih (s.makeDue g)
    have hc : s.makeAllDue (g :: gs) = (s.makeDue g).makeAllDue gs := rfl
    rw [hc, h]
    simp [State.makeDue, State.setGroupState]

/-- What making groups DUE does to each group. -/
theorem State.makeAllDue_get (gs : List GroupId) (s : State) (g : GroupId) :
    (s.makeAllDue gs).groups.get g = if g ∈ gs then { s.groups.get g with state := .due } else s.groups.get g := by
  induction gs generalizing s with
  | nil => simp [State.makeAllDue]
  | cons h gs ih =>
    have hc : s.makeAllDue (h :: gs) = (s.makeDue h).makeAllDue gs := rfl
    have hm : (s.makeDue h).groups.get g
        = if h = g then { s.groups.get g with state := .due } else s.groups.get g := Table.get_modify _ _ _ _
    rw [hc, ih, hm]
    by_cases he : h = g
    · subst he; simp
    · have he' : ¬ g = h := fun e => he e.symm
      simp [he, he']

/-- A record after a change of many records, and a surface's count after it (R52). -/
theorem State.changeRecords_get (s : State) (f : PlacementId → Placement → Placement × List SurfaceId) (i : PlacementId) :
    (s.changeRecords f).ptab.get i = (f i (s.ptab.get i)).1 := Table.get_mapIdx _ _ _

theorem State.changeRecords_refs (s : State) (f : PlacementId → Placement → Placement × List SurfaceId) (i : SurfaceId) :
    (s.changeRecords f).sdir.get i
      = { s.sdir.get i with refs := (s.sdir.get i).refs - (s.noticesOf f).count i } := Table.get_mapIdx _ _ _

/-- What a cut may change (R79 to R84). -/
theorem State.executeCut_eq (g : GroupId) (f : Frame) (s : State) :
    s.executeCut g f = { s with
      ptab := (s.executeCut g f).ptab, sdir := (s.executeCut g f).sdir, groups := (s.executeCut g f).groups
      csu := (s.executeCut g f).csu, cvb := (s.executeCut g f).cvb, evb := (s.executeCut g f).evb } := rfl

/-- What an abandon may change (R85). -/
theorem State.executeAbandon_eq (g : GroupId) (s : State) :
    s.executeAbandon g = { s with
      groups := (s.executeAbandon g).groups, csu := (s.executeAbandon g).csu
      cvb := (s.executeAbandon g).cvb, evb := (s.executeAbandon g).evb } := rfl

/-- The fields that acting on a word may change, as one form. -/
def State.ActsWithin (s t : State) : Prop :=
  t = { s with
    ptab := t.ptab, sdir := t.sdir, groups := t.groups, csu := t.csu, cvb := t.cvb, evb := t.evb }
    ∧ t.csu = { s.csu with
      cutSequence := t.csu.cutSequence, lastCut := t.csu.lastCut
      readinessGiven := t.csu.readinessGiven, desyncHold := t.csu.desyncHold }

theorem State.ActsWithin.refl (s : State) : s.ActsWithin s := ⟨rfl, rfl⟩

theorem State.ActsWithin.trans {s t u : State} (h : s.ActsWithin t) (k : t.ActsWithin u) : s.ActsWithin u := by
  obtain ⟨h1, h2⟩ := h
  obtain ⟨k1, k2⟩ := k
  refine ⟨?_, ?_⟩
  · rw [k1, h1]
  · rw [k2, h2]

theorem State.settleHold_within (s : State) : s.ActsWithin s.settleHold := by
  unfold State.settleHold
  split
  · exact ⟨rfl, rfl⟩
  · exact ⟨rfl, rfl⟩

theorem State.executeCut_within (g : GroupId) (f : Frame) (s : State) : s.ActsWithin (s.executeCut g f) := by
  refine State.ActsWithin.trans ?_ (State.settleHold_within _)
  exact ⟨rfl, rfl⟩

theorem State.executeAbandon_within (g : GroupId) (s : State) : s.ActsWithin (s.executeAbandon g) := by
  refine State.ActsWithin.trans ?_ (State.settleHold_within _)
  exact ⟨rfl, rfl⟩

theorem State.checkSequence_within (w : SyncWord) (f : Frame) (s : State) : s.ActsWithin (s.checkSequence w f) := by
  unfold State.checkSequence
  split
  · split
    · exact .refl s
    · split
      · exact .refl s
      · exact s.executeAbandon_within _
  · split
    · exact s.executeCut_within _ _
    · exact ⟨rfl, rfl⟩

theorem State.takeNominate_within (g : GroupId) (w : SyncWord) (s : State) : s.ActsWithin (s.takeNominate g w) := by
  unfold State.takeNominate
  split <;> exact ⟨rfl, rfl⟩

theorem State.takeAbandon_within (g : GroupId) (s : State) : s.ActsWithin (s.takeAbandon g) := by
  unfold State.takeAbandon
  split
  · exact s.executeAbandon_within _
  · split
    · split
      · exact s.executeAbandon_within _
      · exact .refl s
    · exact .refl s
  · exact .refl s
  · exact .refl s
  · exact .refl s

/-- Acting on a word changes records, groups, the coverage builder, reports and, of the chain state, the sequence, the last cut,
readiness and the hold (R95 to R99). -/
theorem State.actOn_within (w : SyncWord) (f : Frame) (s : State) : s.ActsWithin (s.actOn w f) := by
  unfold State.actOn
  split
  · exact s.checkSequence_within w f
  · exact (s.checkSequence_within w f).trans (State.takeNominate_within _ _ _)
  · unfold State.takeCut
    refine State.ActsWithin.trans ?_ ⟨rfl, rfl⟩
    refine State.ActsWithin.trans ?_ (State.executeCut_within _ _ _)
    split
    · exact .refl s
    · exact ⟨rfl, rfl⟩
  · exact (s.checkSequence_within w f).trans (State.takeAbandon_within _ _)

/-- The evaluation at a boundary: suspended out of lock (R57). -/
theorem State.evaluate_cases (s : State) :
    (s.csu.sync = .locked ∧ s.evaluate = s.evaluateWhere (fun _ => true) s.csu.frame) ∨ (s.csu.sync ≠ .locked ∧ s.evaluate = s) := by
  unfold State.evaluate
  split
  · next h => exact .inl ⟨h, rfl⟩
  · next h => exact .inr ⟨h, rfl⟩

end Sys2Proof.Machine
end

