-- ==== Sys2Proof/Tests/Slice0.lean ====
section
/-! SUPPORT. The model's own tests: the well-formedness smoke test, frames and words written out from 10, section 10.6, the worked
figures of the spec, one step each on a small state; and a witness for the hypotheses of every statement that has any. -/

set_option Elab.async false

namespace Sys2Proof.Tests

open Sys2Proof.Machine

/-! ### Small states -/

/-- The part after power-on, past STARTING, in a phase. -/
def base (p : Phase) : State := { State.reset with phase := p }

/-- The same part strapped SLAVE and of a sync state. -/
def slave (p : Phase) (sync : SyncState) : State :=
  { base p with
    clc := Clc.powerOn ⟨0, .slave, .mib128, true⟩
    csu := { Csu.powerOn .slave with sync := sync } }

/-- The same part not the first of its chain, GIN released by the part before it. -/
def behind (p : Phase) : State := { base p with pins := { (base p).pins with gin := .driven false } }

/-- What a row leaves; the state itself where it stops. -/
def after (c : Instr) (s : State) : State :=
  match exec c s with
  | .next t => t
  | _ => s

/-- The status of the waiting response. -/
def answer (s : State) : Option Status := s.clc.response.map Response.status

/-- The payload of the waiting response. -/
def payload (s : State) : Option Payload := s.clc.response.map Response.payload

/-- A surface of 16 by 16 FULL pixels in one page. -/
def plainDesc : Desc := ⟨.full, 16, 16, 1, 0, none⟩

/-- The state with surface 0 READY. -/
def withSurface (s : State) : State := { s with sdir := s.sdir.set 0 ⟨.ready plainDesc, 0⟩ }

/-- Values that show all of surface 0 in a square of 16 wall pixels. -/
def square : RawValues := ⟨0, 0, 0, 16, 16, 0, 0, 0, 16, 16, 256, 0, 0, 0, 1, 0, 0⟩

/-- The same values as taken, with a fade-out and a run length. -/
def shown (fadeOut : Nat) (endAge : Option Nat) : Values :=
  ⟨0, 0, 0, 16, 16, 0, 0, 0, 16, 16, 65536, 65536, 256, 0, fadeOut, 0, 1, 0, .loop, endAge⟩

/-- The state with record 0 replaced. -/
def withRecord (r : Placement) (s : State) : State := { withSurface s with ptab := s.ptab.set 0 r }

/-- The state with group 0 in a state and with a trigger. -/
def withGroup (st : GroupState) (trigger : Trigger) (s : State) : State :=
  { s with groups := s.groups.set 0 { GroupRec.powerOn with state := st, trigger := trigger } }

/-- The state with port 0 in a state. -/
def withPort (p : Port) (s : State) : State := { s with ports := s.ports.set 0 p }

/-! ### Well-formedness: an ill-formed term for each check -/

theorem test_setTiming_rate_too_wide : (HostCmd.setTiming 256).wellFormed = false := by decide
theorem test_setGeometry_fields_too_wide :
    (HostCmd.setGeometry 65536 0 0 0).wellFormed = false ∧ (HostCmd.setGeometry 0 65536 0 0).wellFormed = false
      ∧ (HostCmd.setGeometry 0 0 65536 0).wellFormed = false ∧ (HostCmd.setGeometry 0 0 0 65536).wellFormed = false := by
  decide
theorem test_setTile_fields_too_wide :
    (HostCmd.setTile 256 0 0 0 0 0).wellFormed = false ∧ (HostCmd.setTile 0 256 0 0 0 0).wellFormed = false
      ∧ (HostCmd.setTile 0 0 256 0 0 0).wellFormed = false ∧ (HostCmd.setTile 0 0 0 256 0 0).wellFormed = false
      ∧ (HostCmd.setTile 0 0 0 0 128 0).wellFormed = false ∧ (HostCmd.setTile 0 0 0 0 0 (-129)).wellFormed = false := by
  decide
theorem test_defineSurface_fields_too_wide :
    (HostCmd.defineSurface 256 0 0 0 0 0 none).wellFormed = false
      ∧ (HostCmd.defineSurface 0 256 0 0 0 0 none).wellFormed = false
      ∧ (HostCmd.defineSurface 0 0 65536 0 0 0 none).wellFormed = false
      ∧ (HostCmd.defineSurface 0 0 0 65536 0 0 none).wellFormed = false
      ∧ (HostCmd.defineSurface 0 0 0 0 256 0 none).wellFormed = false
      ∧ (HostCmd.defineSurface 0 0 0 0 0 4294967296 none).wellFormed = false
      ∧ (HostCmd.defineSurface 0 0 0 0 0 0 (some 4294967296)).wellFormed = false := by
  decide
theorem test_upload_fields_too_wide :
    (HostCmd.upload 256 0 []).wellFormed = false ∧ (HostCmd.upload 0 4294967296 []).wellFormed = false
      ∧ (HostCmd.upload 0 0 (List.replicate 4097 0)).wellFormed = false := by
  refine ⟨by decide, by decide, ?_⟩
  simp only [HostCmd.wellFormed, List.length_replicate]
  decide
theorem test_oneByte_operands_too_wide :
    (HostCmd.dropSurface 256).wellFormed = false ∧ (HostCmd.retire 256).wellFormed = false
      ∧ (HostCmd.withdraw 256).wellFormed = false ∧ (HostCmd.lookup 256).wellFormed = false
      ∧ (HostCmd.commit 256).wellFormed = false ∧ (HostCmd.cancel 256).wellFormed = false
      ∧ (HostCmd.groupInfo 256).wellFormed = false ∧ (HostCmd.surfaceInfo 256).wellFormed = false
      ∧ (HostCmd.tileInfo 256).wellFormed = false ∧ (HostCmd.setPacing 256).wellFormed = false := by
  decide
theorem test_place_fields_too_wide :
    (HostCmd.place 256 0 square).wellFormed = false ∧ (HostCmd.place 0 256 square).wellFormed = false
      ∧ (HostCmd.place 0 0 { square with layer := 256 }).wellFormed = false
      ∧ (HostCmd.place 0 0 { square with alpha := 65536 }).wellFormed = false
      ∧ (HostCmd.place 0 0 { square with cellMode := 256 }).wellFormed = false := by
  decide
theorem test_amend_fields_too_wide :
    (HostCmd.amend 256 square 0).wellFormed = false ∧ (HostCmd.amend 0 { square with dx := 65536 } 0).wellFormed = false
      ∧ (HostCmd.amend 0 square 256).wellFormed = false := by
  decide
theorem test_find_point_too_wide :
    (HostCmd.find 65536 0).wellFormed = false ∧ (HostCmd.find 0 65536).wellFormed = false := by decide
theorem test_setGroup_fields_too_wide :
    (HostCmd.setGroup 256 0 0 0 0 0).wellFormed = false ∧ (HostCmd.setGroup 0 256 0 0 0 0).wellFormed = false
      ∧ (HostCmd.setGroup 0 0 256 0 0 0).wellFormed = false ∧ (HostCmd.setGroup 0 0 0 256 0 0).wellFormed = false
      ∧ (HostCmd.setGroup 0 0 0 0 4294967296 0).wellFormed = false
      ∧ (HostCmd.setGroup 0 0 0 0 0 65536).wellFormed = false := by
  decide
theorem test_setBackground_channels_too_wide :
    (HostCmd.setBackground ⟨65536, 0, 0⟩).wellFormed = false ∧ (HostCmd.setBackground ⟨0, 65536, 0⟩).wellFormed = false
      ∧ (HostCmd.setBackground ⟨0, 0, 65536⟩).wellFormed = false := by
  decide
theorem test_tilePower_fields_too_wide :
    (HostCmd.tilePower 256 0 none).wellFormed = false ∧ (HostCmd.tilePower 0 256 none).wellFormed = false
      ∧ (HostCmd.tilePower 0 0 (some 65536)).wellFormed = false := by
  decide
theorem test_tileMode_fields_too_wide :
    (HostCmd.tileMode 256 0 none none).wellFormed = false ∧ (HostCmd.tileMode 0 256 none none).wellFormed = false
      ∧ (HostCmd.tileMode 0 0 (some ⟨0, 65536, 0⟩) none).wellFormed = false
      ∧ (HostCmd.tileMode 0 0 none (some 65536)).wellFormed = false := by
  decide
theorem test_marks_too_wide :
    (HostCmd.setBlackout 256 none).wellFormed = false
      ∧ (HostCmd.setBlackout 0 (some (Table.replicate 4 256))).wellFormed = false
      ∧ (HostCmd.setEventEnables (Table.replicate 16 256)).wellFormed = false := by
  decide
theorem test_carriers_too_wide :
    (Instr.start 256).wellFormed = false ∧ (Instr.readTransfer 256 true).wellFormed = false
      ∧ (Instr.syncWordArrival []).wellFormed = false := by
  decide

/-! ### Frames and words written out from 10, section 10.6 -/

theorem test_frame_setTiming : encodeFrame 0 (.setTiming 60) = [0, 3, 1, 0, 60] := by decide
theorem test_frame_setGeometry :
    encodeFrame 15 (.setGeometry 512 512 12 12) = [15, 4, 8, 0, 0, 2, 0, 2, 12, 0, 12, 0] := by decide
theorem test_payload_setTile : parseCommand 5 [6, 1, 2, 1, 1, 254] = some (.setTile 6 1 2 1 1 (-2)) := by decide
theorem test_payload_defineSurface :
    parseCommand 9 [2, 1, 44, 1, 8, 7, 6, 233, 7, 0, 0, 31, 248, 0, 0]
      = some (.defineSurface 2 1 300 1800 6 2025 (some 63519)) := by decide
theorem test_payload_upload : parseCommand 10 [2, 0, 176, 0, 0, 7, 9] = some (.upload 2 45056 [7, 9]) := by decide
theorem test_payload_place :
    parseCommand 12 [5, 3, 1, 232, 3, 244, 1, 0, 5, 208, 2, 1, 0, 0, 0, 0, 128, 7, 56, 4, 0, 1, 3, 0, 0, 0, 1, 0, 0]
      = some (.place 5 3 ⟨1, 1000, 500, 1280, 720, 1, 0, 0, 1920, 1080, 256, 3, 0, 0, 1, 0, 0⟩) := by decide
theorem test_payload_setGroup :
    parseCommand 18 [3, 2, 0, 0, 1, 0, 1, 0, 60, 0] = some (.setGroup 3 2 0 0 65537 60) := by decide
theorem test_payload_tileMode :
    parseCommand 25 [16, 1, 255, 0, 0, 0, 10, 0, 0, 1] = some (.tileMode 16 1 (some ⟨255, 0, 10⟩) (some 256)) := by decide
theorem test_payload_setBlackout :
    parseCommand 27 [2, 0, 1, 0, 1] = some (.setBlackout 2 (some ⟨[0, 1, 0, 1], rfl⟩)) := by decide
theorem test_payload_setPacing : parseCommand 29 [3] = some (.setPacing 3) := by decide
theorem test_payload_of_wrong_length : parseCommand 29 [3, 3] = none ∧ parseCommand 1 [0] = none := by decide
theorem test_unknown_codes : parseCommand 0 [] = none ∧ parseCommand 33 [] = none := by decide
theorem test_word_cut :
    parseSyncWord [2, 3, 2, 1, 0, 0, 5, 3, 2, 1, 0, 0, 0, 19] = some ⟨.cut 3, 258, 5, some (3, 258), false⟩ := by decide
theorem test_word_plain_absent_cut :
    parseSyncWord [0, 0, 255, 255, 255, 255, 0, 255, 0, 0, 0, 0, 1, 252] = some ⟨.plain, 4294967295, 0, none, true⟩ := by
  decide
theorem test_tile_header : (⟨258, 512, .flat⟩ : TileHeader).bytes = [2, 1, 0, 2, 1] := by decide

/-! ### The worked figures of the spec -/

/-- The geometry of 01, section 1.8, and its tile 6. -/
def twoParts : State :=
  { base .config with
    geo := ⟨512, 512, 12, 12⟩
    tiles := (base .config).tiles.set 6 { TileRec.powerOn with placed := true, column := 2, row := 1, trimX := 1, trimY := -2 } }

theorem test_tile6_rectangle : (after (.start 0) twoParts).held.rects.get 6 = some ⟨1049, 522, 512, 512⟩ := by decide +kernel

/-- The wall of 01, section 1.9: tiles 7 and 9 at one position, tile 8 past the wall's edge. -/
def refusedWall : State :=
  { twoParts with tiles := (((twoParts.tiles.set 7 { TileRec.powerOn with placed := true, column := 3, row := 1 }).set 8
      { TileRec.powerOn with placed := true, column := 31 }).set 9
      { TileRec.powerOn with placed := true, column := 3, row := 1 }) }

theorem test_start_refused_duplicate :
    payload (after (.start 0) refusedWall) = some (.geometryFault 7 .duplicate) := by decide +kernel
theorem test_start_refused_span :
    payload (after (.start 0) { refusedWall with tiles := refusedWall.tiles.set 9 TileRec.powerOn })
      = some (.geometryFault 8 .spanX) := by decide +kernel

/-- The directory of 02, section 2.10, after its first step. -/
def adverts : State :=
  after (.defineSurface 0 1 0 1920 1080 1 0 none)
    { base .config with clc := Clc.powerOn ⟨0, .master, .mib256, true⟩ }

theorem test_define_advert : payload adverts = some (.defined 2025 8294400) := by decide +kernel
theorem test_define_overlap :
    payload (after (.defineSurface 0 2 1 300 1800 6 2000 (some 63519)) adverts) = some (.overlapping 1) := by decide +kernel
theorem test_define_flipbook :
    payload (after (.defineSurface 0 2 1 300 1800 6 2025 (some 63519)) adverts) = some (.defined 264 1080000) := by
  decide +kernel
theorem test_define_outside_store :
    answer (after (.defineSurface 0 3 0 1280 720 1 65400 none) adverts) = some .badValue := by decide +kernel

/-- The placement of 06, section 6.5. -/
def fadingIn : Values :=
  ⟨0, 1000, 500, 1280, 720, 0, 0, 0, 1920, 1080, 98304, 98304, 256, 3, 0, 0, 1, 0, .loop, none⟩

theorem test_steps : scaleStep 1920 1280 = 98304 ∧ scaleStep 1000 300 = 218453 := by decide
theorem test_source_pixel : sourceColumn fadingIn 1149 = 224 ∧ sourceRow fadingIn 562 = 93 := by decide
theorem test_source_address : pixelAddress ⟨.full, 1920, 1080, 1, 0, none⟩ 224 93 = 715136 := by decide
theorem test_fade_weight : fadeInWeight fadingIn 1 = 128 ∧ effectiveWeight fadingIn 128 = 128 := by decide
theorem test_pixel_blended : blend 128 ⟨200, 40, 10⟩ ⟨0, 0, 64⟩ = ⟨100, 20, 37⟩ := by decide
theorem test_pixel_levelled :
    scaleColour 192 ⟨100, 20, 37⟩ = ⟨75, 15, 27⟩ ∧ scaleColour (effectiveLevel 192 .hot) ⟨100, 20, 37⟩ = ⟨50, 10, 18⟩ := by
  decide
theorem test_pixel_whole :
    composePoint (fun a => if a = 715136 then 200 else if a = 715137 then 40 else if a = 715138 then 10 else 0)
      ⟨0, 0, 64⟩ 192 [⟨fadingIn, 0, 128, some ⟨.full, 1920, 1080, 1, 0, none⟩⟩] 1149 562 = ⟨75, 15, 27⟩ := by decide
theorem test_half_white : halfColour 65535 = ⟨255, 255, 255⟩ := by decide

/-! ### One step each -/

theorem test_idle_step_ticks : (match step State.reset with | .next t => t.now | _ => 0) = 1 := by decide
theorem test_commands_leave_in_order :
    (match step { base .config with pending := [.stop 0, .start 0] } with | .next t => t.pending | _ => []) = [.start 0] := by
  decide +kernel
theorem test_starting_drops_frames : after (.identify 0) State.reset = State.reset := by decide +kernel
theorem test_stop_in_config_refused : answer (after (.stop 0) (base .config)) = some .wrongPhase := by decide +kernel
theorem test_stop_in_running : (after (.stop 0) (base .running)).phase = .config := by decide +kernel
theorem test_geometry_in_running_refused :
    answer (after (.setGeometry 0 512 512 12 12) (base .running)) = some .wrongPhase := by decide +kernel
theorem test_broadcast_identify_recorded :
    (after (.identify 15) (base .config)).clc.lastBroadcast = some (1, .badCommand)
      ∧ (after (.identify 15) (base .config)).clc.response = none := by decide +kernel
theorem test_other_unit_dropped : after (.identify 3) (base .config) = base .config := by decide +kernel
theorem test_setTiming_stores : (after (.setTiming 0 24) (base .config)).rate = .hz24 := by decide +kernel
theorem test_place_names_surface :
    ((after (.place 0 0 0 square) (withSurface (base .config))).sdir.get 0).refs = 1 := by decide +kernel
theorem test_place_in_use :
    answer (after (.place 0 0 0 square) (withRecord (.staged 0 (shown 0 none)) (base .config))) = some .idInUse := by
  decide +kernel
theorem test_retire_staged_frees :
    (after (.retire 0 0) (withRecord (.staged 0 (shown 0 none)) (base .config))).ptab.get 0 = .free := by decide +kernel
theorem test_withdraw_live_keeps_run :
    (after (.withdraw 0 0) (withRecord (.live 0 (shown 0 none) 3 4 (some .retire)) (base .config))).ptab.get 0
      = .live 0 (shown 0 none) 3 4 none := by decide +kernel
theorem test_commit_on_slave_refused : answer (after (.commit 0 0) (slave .running .locked)) = some .notMaster := by
  decide +kernel
theorem test_commit_queues : (after (.commit 0 5) (base .running)).due = [5] := by decide +kernel
theorem test_cancel_nominated_too_late :
    payload (after (.cancel 0 0) (withGroup (.nominated 7) .immediate (base .running))) = some (.nominatedAt 7) := by
  decide +kernel
theorem test_setGroup_timeout_zero_is_one :
    payload (after (.setGroup 0 2 0 0 0 0 0) (base .config)) = some (.commitTimeout 1) := by decide +kernel
theorem test_warmUp_rounded_down :
    ((after (.tilePower 0 0 1 (some 333)) (base .config)).tiles.get 0).warmUp = 330 := by decide +kernel
theorem test_setPacing_refused : answer (after (.setPacing 0 4) (base .config)) = some .badValue := by decide +kernel
theorem test_first_boundary_of_master :
    (after (.masterFrameBoundary true) { base .running with csu := { (base .running).csu with timing := true } }).csu.frame
      = 1 := by decide +kernel
theorem test_due_group_nominated :
    ((after (.masterFrameBoundary false) { withGroup .due .immediate (base .running) with
        due := [0], csu := { (base .running).csu with timing := true } }).groups.get 0).state = .nominated 1 := by decide +kernel
theorem test_lost_after_three_frames :
    ((after (.tileLost 0) (withPort ⟨.up, 2, .ok, false⟩ (base .running))).ports.get 0).state = .lost := by decide +kernel
theorem test_third_attempt_fails_to_fault :
    ((after (.trainingAttemptFail 0) (withPort ⟨.training 3 5, 0, .ok, false⟩ (base .running))).ports.get 0).state
      = .fault := by decide +kernel
theorem test_latch_set_by_assertion :
    (after (.blackoutInputChange true 2000)
      { base .running with cbi := { (base .running).cbi with mode := .latch } }).cbi.latch = true := by decide +kernel
theorem test_latch_not_cleared_while_asserted :
    answer (after (.clearBlackout 0)
      { base .running with cbi := { (base .running).cbi with mode := .latch, input := true, latch := true } })
      = some .stillAsserted := by decide +kernel
theorem test_master_hands_flag_over_in_starting :
    (after (.masterFrameBoundary true)
      { base .starting with
        csu := { (base .starting).csu with timing := true }
        cbi := { (base .starting).cbi with state := true } }).csu.blackoutFlag = true := by decide +kernel
theorem test_cue_edge_waits_from_the_sample :
    (after (.cueEdge 0 true 2000) { base .running with
      cbi := { (base .running).cbi with cue := Table.replicate 4 (some false), cueSampledAt := 100 } }).now
      = 100 + 2 * Config.ticksPerMilli := by decide +kernel
theorem test_lost_row_stops_the_frame :
    ((after (.tileLost 0) { withPort ⟨.up, 2, .ok, false⟩ (base .running) with
      frames := (base .running).frames.set 0 { FrameRec.powerOn with kind := .picture } }).frames.get 0).kind = .none := by
  decide +kernel
theorem test_training_pattern_sent :
    (after (.warmUpExpiry 0) (withPort ⟨.powering 9, 0, .ok, false⟩ (base .running))).linkDrive 0 = .pattern := by decide +kernel
theorem test_tile_info_no_restart_when_off :
    payload (after (.tileInfo 0 0) (base .config)) = some (.tile ((base .config).tileReport 0))
      ∧ ((base .config).tileReport 0).restartAfterDrain = false := by decide +kernel
theorem test_not_ready_byte : ReadOut.notReady.bytes = [255] ∧ ReadOut.idleLine.bytes = [255] := by decide
theorem test_response_header : (ReadOut.frame ⟨.ok, 7, true, .empty⟩).bytes = [0, 7, 1, 0, 0] := by decide
/-- R191, R185: the first part drives GOUT from reset on and after every reset; POLL releases it and leaves GIN tied. -/
theorem test_first_part_gin_tied :
    State.reset.goutAsserted = true ∧ (after (.poll 15) (base .config)).goutAsserted = false
      ∧ (after (.poll 15) (base .config)).pins.ginReads = true
      ∧ (after .rstKeepAssert (after (.poll 15) (base .config))).goutAsserted = true := by decide +kernel
/-- R191: any other part, passing, drives GOUT asserted once the grant comes, and never because of a POLL it does not take. -/
theorem test_grant_passed_on :
    (behind .config).goutAsserted = false ∧ (after .grantArrival (behind .config)).goutAsserted = true
      ∧ (after (.poll 15) (behind .starting)).goutAsserted = false ∧ (after (.poll 15) (behind .starting)).clc.grant = .passing := by
  decide +kernel
/-- R191: whether GOUT falls in a passing part that takes no POLL is what the part before it does. -/
theorem test_poll_not_taken (n : Nat) :
    (after (.poll 15) { after .grantArrival (behind .starting) with freeCount := n }).goutAsserted = Config.goutBeforeStays n := rfl
/-- R140: a fetch of equal due time does not displace the one being served; one due earlier does. -/
def serving (due : Nat) : Fsc :=
  { Fsc.powerOn with
    fetches := (Fsc.powerOn.fetches.set 0 (some ⟨1, due, [(0, 300)]⟩)).set 1 (some ⟨1, 90, [(4096, 44)]⟩)
    serving := some 1 }
theorem test_served_fetch_keeps_the_store :
    ((serving 90).granted 0).burst.map Burst.kind = some (.fetch 1 false)
      ∧ ((serving 89).granted 0).burst.map Burst.kind = some (.fetch 0 false) := by decide +kernel
theorem test_startingEnd_enters_config : (after .startingEnd State.reset).phase = .config := by decide +kernel
theorem test_broken_word_did_not_arrive :
    after (.syncWordArrival [0, 0, 1, 0, 0, 0, 0, 255, 0, 0, 0, 0, 0, 1]) (slave .running .locked)
      = slave .running .locked := by decide +kernel

/-! ### Witnesses: a state and operands that meet the hypotheses of each clause of a statement, at a boundary where there is one -/

theorem witness_PayloadReadsBack :
    (HostCmd.setTile 255 255 255 255 (-128) 127).wellFormed = true
      ∧ (HostCmd.defineSurface 255 255 65535 65535 255 4294967295 (some 4294967295)).wellFormed = true
      ∧ (HostCmd.upload 255 4294967295 (List.replicate 4096 0)).wellFormed = true := by
  refine ⟨by decide, by decide, ?_⟩
  simp only [HostCmd.wellFormed, List.length_replicate]
  decide

theorem witness_FrameIsItsCommand : 255 < 256 ∧ (HostCmd.setGeometry 65535 65535 65535 65535).wellFormed = true := by decide

theorem witness_BadWordsDoNotArrive :
    (slave .running .locked).clc.straps.role = .slave ∧ (base .running).clc.straps.role = .master
      ∧ ∀ bad ∈ [[0, 0, 1, 0, 0, 0, 0, 255, 0, 0, 0, 0, 0, 1], [4, 0, 1, 0, 0, 0, 0, 255, 0, 0, 0, 0, 0, 4],
          [0, 8, 1, 0, 0, 0, 0, 255, 0, 0, 0, 0, 0, 8], [0, 0, 1, 0, 0, 0, 16, 255, 0, 0, 0, 0, 0, 16],
          [0, 0, 1, 0, 0, 0, 0, 8, 0, 0, 0, 0, 0, 9], [0, 0, 1, 0, 0, 0, 0, 254, 0, 0, 0, 0, 0, 255],
          [0, 0, 1, 0, 0, 0, 0, 255, 0, 0, 0, 0, 2, 2]],
        ∃ b : Fin 14 → Byte, bad = List.ofFn b ∧
          (b 13 ≠ b 0 + b 1 + b 2 + b 3 + b 4 + b 5 + b 6 + b 7 + b 8 + b 9 + b 10 + b 11 + b 12
            ∨ 3 < (b 0).toNat ∨ 7 < (b 1).toNat ∨ 15 < (b 6).toNat ∨ (8 ≤ (b 7).toNat ∧ (b 7).toNat ≤ 254)
            ∨ 1 < (b 12).toNat) := by
  refine ⟨rfl, rfl, fun bad h => ⟨fun i => bad.getD i.val 0, ?_⟩⟩
  revert bad
  decide +kernel

/-- The part while an UPLOAD of surface 0 is executing. -/
def uploading : State :=
  { base .config with
    clc := { (base .config).clc with executing := some ⟨10, false, false, .upload 0 4⟩ }
    sdir := (base .config).sdir.set 0 ⟨.loading plainDesc 0, 0⟩
    fsc := { (base .config).fsc with
      upload := some ⟨0, [1, 2, 3, 4], 0⟩
      burst := some ⟨.load, 0, 4, 60⟩ } }

theorem witness_FramesReceived :
    ([] : List Byte).length < 4 ∧ ([0, 1, 0] : List Byte).length < 4 ∧ State.reset.phase = .starting
      ∧ ([1, 32, 0, 0] : List Byte) ≠ [15, 32, 0, 0]
      ∧ ((8 : Byte).toNat ≠ (base .config).clc.straps.unit.val ∧ (8 : Byte).toNat ≠ 15)
      ∧ (uploading.phase ≠ .starting ∧ (15 : Byte).toNat = 15 ∧ uploading.clc.executing.isSome = true)
      ∧ ((base .config).phase ≠ .starting ∧ (base .config).clc.executing = none)
      ∧ (base .config).frameTests 0 1 4102 4102 = some .badLength ∧ (base .config).frameTests 0 1 0 1 = some .badLength
      ∧ (base .config).frameTests 0 33 0 0 = some .badCommand ∧ (base .config).frameTests 0 0 0 0 = some .badCommand
      ∧ (base .config).frameTests 15 30 0 0 = some .badCommand ∧ (base .config).frameTests 0 32 0 0 = some .badCommand
      ∧ (base .config).frameTests 0 10 4 4 = some .badLength ∧ (base .config).frameTests 0 7 0 0 = some .wrongPhase
      ∧ (base .running).frameTests 0 6 0 0 = some .wrongPhase := by
  decide +kernel

/-- A response that waits. -/
def waiting : Response := ⟨.ok, 29, false, .pacing 1⟩

theorem witness_ReadsAnswered :
    State.reset.phase = .starting ∧ uploading.clc.executing ≠ none ∧ (base .config).clc.response = none
      ∧ (let s := { base .config with clc := { (base .config).clc with response := some waiting } };
          s.phase ≠ .starting ∧ s.clc.executing = none ∧ s.clc.response = some waiting)
      ∧ (let s := { base .config with clc := { (base .config).clc with pollAnswer := some .none } }; s.clc.pollAnswer = some .none)
      ∧ (base .config).clc.pollAnswer = none ∧ (14 ≠ (base .config).clc.straps.unit.val ∧ 14 ≠ 15) := by
  decide +kernel

/-- The part that awaits the grant. -/
def awaiting (flag enable chainEnd : Bool) : State :=
  { base .config with
    clc := { Clc.powerOn ⟨0, .master, .mib128, chainEnd⟩ with grant := .awaiting }
    evb := ⟨if flag then (Table.replicate 16 none).set 15 (some ⟨.linkOverrun 0 1, 1, 0⟩) else Table.replicate 16 none,
      Table.replicate 16 enable⟩ }

theorem witness_PollFindsAttention :
    (base .config).Takes 15 32
      ∧ ((awaiting true true false).clc.grant = .awaiting
          ∧ ∃ i, ((awaiting true true false).evb.flags.get i).isSome = true ∧ (awaiting true true false).evb.enables.get i = true)
      ∧ (∀ last, (awaiting true false last).clc.grant = .awaiting
          ∧ ∀ i, ((awaiting true false last).evb.flags.get i).isSome = true → (awaiting true false last).evb.enables.get i = false)
      ∧ ((base .config).clc.grant ≠ .awaiting ∧ (base .config).clc.grant = .passing)
      ∧ State.reset.phase = .starting
      ∧ ((uploading.phase ≠ .starting) ∧ uploading.clc.executing ≠ none)
      ∧ (base .config).pins.gin = .tied ∧ (behind .config).pins.gin = .driven false := by
  simp only [State.Takes]
  and_intros <;> decide +kernel

theorem witness_IdentifyAndStatusAnswer : (base .config).Takes 0 1 ∧ (base .running).Takes 0 2 := by
  simp only [State.Takes]
  and_intros <;> decide +kernel

theorem witness_EventsReturnedAndCleared :
    (awaiting true true true).Takes 0 30 ∧ (base .config).Takes 15 31 ∧ (base .running).Takes 0 31
      ∧ (∀ i, (Table.replicate 16 1 : Table Nat 16).get i ≤ 1) ∧ (∃ i, 1 < (Table.replicate 16 2 : Table Nat 16).get i)
      ∧ (∀ i, (base .config).evb.flags.get i = none)
      ∧ ((Table.replicate 16 1 : Table Nat 16).get 15 = 1 ∧ ((awaiting true false true).evb.flags.get 15).isSome = true) := by
  simp only [State.Takes]
  and_intros <;> decide +kernel

theorem witness_ReportsGather :
    (base .config).evb.flags.get (Detail.frameTick 1).flag = none
      ∧ (awaiting true true true).evb.flags.get (Detail.linkOverrun 1 1).flag = some ⟨.linkOverrun 0 1, 1, 0⟩
      ∧ (0 : Fin 16) ≠ (Detail.linkOverrun 1 1).flag := by
  decide +kernel

theorem witness_StopAndSetTiming :
    (base .running).Takes 0 7 ∧ (base .config).Takes 0 3
      ∧ (60, Rate.hz60) ∈ [(24, Rate.hz24), (25, .hz25), (30, .hz30), (50, .hz50), (60, .hz60)]
      ∧ 61 ∉ [24, 25, 30, 50, 60] := by
  simp only [State.Takes]
  and_intros <;> decide +kernel

theorem witness_GeometryCommands :
    (base .config).Takes 0 4 ∧ (base .config).Takes 15 5 ∧ 16 ≤ 16
      ∧ ((base .running).phase = .running ∧ (base .running).clc.executing = none
          ∧ 0 = (base .running).clc.straps.unit.val) := by
  simp only [State.Takes]
  and_intros <;> decide +kernel

/-- Tile 0 past the upper edge of the wall. -/
def aboveWall : State :=
  { base .config with tiles := (base .config).tiles.set 0 { TileRec.powerOn with placed := true, trimY := -1 } }

theorem witness_StartTakesEffect :
    (base .config).Takes 0 6
      ∧ ((∀ u : TileId, u.val < 7 → refusedWall.TileFits u) ∧ refusedWall.Offends 7 .duplicate)
      ∧ ((∀ u : TileId, u.val < 0 → aboveWall.TileFits u) ∧ aboveWall.Offends 0 .spanY)
      ∧ (let s := { refusedWall with tiles := (refusedWall.tiles.set 9 TileRec.powerOn).set 7 TileRec.powerOn };
          (∀ u : TileId, u.val < 8 → s.TileFits u) ∧ s.Offends 8 .spanX)
      ∧ (∀ t, twoParts.TileFits t)
      ∧ twoParts.cvb.prep = .none ∧ (Prep.inFlight 0).group = some 0
      ∧ (after (.start 0) twoParts).clc.executing = some ⟨6, false, false, .start⟩ := by
  simp only [State.Takes, State.TileFits, State.Offends, onWall, State.SharesPlace]
  and_intros <;> decide +kernel

theorem witness_ResetsApply :
    (base .running).Takes 15 8 ∧ (base .running).pins.rstKeep = false ∧ (base .running).pins.rstAll = false
      ∧ (after .rstKeepAssert (base .running)).pins.rstKeep = true
      ∧ (after .rstAllAssert (base .running)).pins.rstAll = true := by
  simp only [State.Takes]
  and_intros <;> decide +kernel

theorem witness_StartingEndsInConfig :
    (State.reset.phase = .starting ∧ State.reset.pins.rstAll = false ∧ State.reset.pins.rstKeep = false)
      ∧ (base .config).phase ≠ .starting ∧ (after .rstAllAssert State.reset).pins.rstAll = true := by
  decide +kernel

/-- Surface 0 named once. -/
def named : State := { base .config with sdir := (base .config).sdir.set 0 ⟨.ready plainDesc, 1⟩ }

theorem withSurface_others (k : SurfaceId) (h : k ≠ 0) : ((withSurface (base .config)).surface k).desc = none := by
  revert k
  decide +kernel

theorem withSurface_first (k : SurfaceId) (x : Desc) (h : ((withSurface (base .config)).surface k).desc = some x) :
    k = 0 ∧ x = plainDesc := by
  by_cases hk : k = 0
  · subst hk
    exact ⟨rfl, (Option.some.inj h).symm⟩
  · rw [withSurface_others k hk] at h
    cases h

theorem witness_SurfacesDefinedAndDropped :
    ((base .config).Takes 0 9 ∧ 256 ≤ 256)
      ∧ (named.surface 0 ≠ .empty ∧ 0 < (named.sdir.get 0).refs)
      ∧ (¬ (named.surface 1 ≠ .empty ∧ 0 < (named.sdir.get 1).refs) ∧ surfaceFieldsFail 2 16 16 1 none)
      ∧ surfaceFieldsFail 1 16 16 1 (some 65536)
      ∧ storePages (base .config).clc.straps.store < 32768 + (16 * 4 * 16 + 4095) / 4096
      ∧ (¬ surfaceFieldsFail 0 16 16 1 (some 16777215)
          ∧ ¬ storePages (base .config).clc.straps.store < 0 + (16 * 4 * 16 + 4095) / 4096
          ∧ ((withSurface (base .config)).surface 0).desc = some plainDesc
          ∧ (⟨.full, 16, 16, 1, 0, none⟩ : Desc).Overlaps plainDesc
          ∧ ∀ (k : SurfaceId) (x : Desc), k.val < 0 → k ≠ 1 → ((withSurface (base .config)).surface k).desc = some x →
              ¬ (⟨.full, 16, 16, 1, 0, none⟩ : Desc).Overlaps x)
      ∧ (¬ storePages (base .config).clc.straps.store < 32767 + (16 * 4 * 16 + 4095) / 4096
          ∧ ∀ (k : SurfaceId) (x : Desc), k ≠ 1 → ((withSurface (base .config)).surface k).desc = some x →
              ¬ (⟨.full, 16, 16, 1, 32767, none⟩ : Desc).Overlaps x)
      ∧ (base .config).Takes 15 11 ∧ (base .config).surface 0 = .empty
      ∧ ((withSurface (base .config)).surface 0 ≠ .empty ∧ ((withSurface (base .config)).sdir.get 0).refs = 0) := by
  refine ⟨?_, by decide +kernel, ⟨by decide +kernel, .inl (by decide)⟩, ?_, by decide +kernel,
    ⟨by simp [surfaceFieldsFail], by decide +kernel, by decide +kernel, by unfold Desc.Overlaps; decide +kernel,
      fun k _ hk => absurd hk (Nat.not_lt_zero _)⟩,
    ⟨by decide +kernel, fun k x _ hx => ?_⟩, ?_, by decide +kernel, by decide +kernel⟩
  · simp only [State.Takes]
    decide +kernel
  · simp [surfaceFieldsFail]
  · obtain ⟨_, rfl⟩ := withSurface_first k x hx
    unfold Desc.Overlaps
    decide
  · simp only [State.Takes]
    decide +kernel

theorem witness_UploadTaken :
    (base .config).Takes 0 10 ∧ ([] : List Byte).length ≤ 4096 ∧ 4096 < (List.replicate 4097 (0 : Byte)).length
      ∧ (List.replicate 4096 (0 : Byte)).length ≤ 4096
      ∧ (base .config).surface 0 = .empty ∧ (withSurface (base .config)).surface 0 = .ready plainDesc
      ∧ (uploading.surface 0 = .loading plainDesc 0 ∧ 1 ≠ 0) := by
  simp only [State.Takes, List.length_replicate]
  and_intros <;> decide +kernel

theorem witness_RecordsReported :
    ((base .config).Takes 0 22 ∧ (base .config).Takes 0 26 ∧ (base .config).Takes 0 21)
      ∧ (256 ≤ 256 ∧ 16 ≤ 16 ∧ 8 ≤ 8)
      ∧ ((withGroup .armed (.frame 9) (base .config)).clc.straps.role = .master
          ∧ ((withGroup .armed (.frame 9) (base .config)).groups.get 0).trigger = .frame 9)
      ∧ (slave .config .unlocked).clc.straps.role = .slave := by
  simp only [State.Takes]
  and_intros <;> decide +kernel

theorem witness_ValuesTested :
    ¬ valuesFit { square with dx := 16384 } ∧ ¬ valuesFit { square with cellMode := 3 }
      ∧ (valuesFit square ∧ square.surface = (0 : SurfaceId).val ∧ (base .config).surface 0 = .empty)
      ∧ ((withSurface (base .config)).surface 0).desc = some plainDesc
      ∧ (valuesFit { square with sw := 17 } ∧ plainDesc.width < 0 + 17)
      ∧ (valuesFit { square with sw := 1, dw := 17 } ∧ ¬ (plainDesc.width < 0 + 1) ∧ 1 * 65536 / 17 < 4096)
      ∧ (valuesFit { square with sw := 1 } ∧ 4096 ≤ 1 * 65536 / 16)
      ∧ valuesFit { square with cellMode := 2, runLength := 65535 } := by
  simp only [valuesFit]
  and_intros <;> decide +kernel

theorem locked_nominated (s : State) (t : Trigger) (f : Frame) : ((withGroup (.nominated f) t s).groupState 0).Locks :=
  ⟨f, .inl (by simp [withGroup, State.groupState, Table.get_set_self])⟩

theorem locked_inDoubt (s : State) (t : Trigger) (f : Frame) : ((withGroup (.inDoubt f) t s).groupState 0).Locks :=
  ⟨f, .inr (by simp [withGroup, State.groupState, Table.get_set_self])⟩

theorem unlocked {st : GroupState} (h : st.holdsRecords = false) : ¬ st.Locks := by
  rintro ⟨f, rfl | rfl⟩ <;> cases h

theorem witness_PlacementStaged :
    ((base .config).Takes 0 12 ∧ 128 ≤ 128 ∧ 8 ≤ 8)
      ∧ ((withRecord (.staged 3 (shown 0 none)) (base .config)).ptab.get 0).group = some 3
      ∧ ((base .config).ptab.get 127 = .free ∧ ((withGroup (.nominated 7) .immediate (base .config)).groupState 0).Locks)
      ∧ (¬ ((withSurface (base .config)).groupState 7).Locks
          ∧ (withSurface (base .config)).checkValues { square with dx := 16384 } = .error .badValue)
      ∧ (withSurface (base .config)).checkValues square = .ok (shown 0 none) := by
  refine ⟨?_, by decide +kernel, ⟨by decide +kernel, locked_nominated _ _ _⟩, ⟨unlocked (by decide +kernel), by decide +kernel⟩,
    by decide +kernel⟩
  simp only [State.Takes]
  decide +kernel

/-- Every kind of record that an amendment meets. -/
theorem witness_PlacementAmended :
    ((base .config).Takes 0 13 ∧ 128 ≤ 128 ∧ 1 < 2)
      ∧ (base .config).ptab.get 0 = .free
      ∧ (((withRecord (.staged 0 (shown 0 none)) (withGroup (.inDoubt 7) .immediate (base .config))).ptab.get 0).group = some 0
          ∧ ((withGroup (.inDoubt 7) .immediate (base .config)).groupState 0).Locks)
      ∧ (withRecord (.fading 0 (shown 2 none) 1 1 5) (base .config)).ptab.get 0 = .fading 0 (shown 2 none) 1 1 5
      ∧ (withRecord (.staged 0 (shown 0 none)) (base .config)).ptab.get 0 = .staged 0 (shown 0 none)
      ∧ (withRecord (.live 0 (shown 0 none) 1 1 none) (base .config)).ptab.get 0 = .live 0 (shown 0 none) 1 1 none
      ∧ ¬ ((withRecord .free (base .config)).groupState 0).Locks
      ∧ (withRecord .free (base .config)).checkValues { square with sw := 17 } = .error .badValue
      ∧ (withRecord .free (base .config)).checkValues square = .ok (shown 0 none) := by
  refine ⟨?_, by decide +kernel, ⟨by decide +kernel, locked_inDoubt _ _ _⟩, by decide +kernel, by decide +kernel,
    by decide +kernel, unlocked (by decide +kernel), by decide +kernel, by decide +kernel⟩
  simp only [State.Takes]
  decide +kernel

theorem witness_PlacementRetired :
    ((base .config).Takes 0 14 ∧ 128 ≤ 128) ∧ (base .config).ptab.get 0 = .free
      ∧ (((withRecord (.staged 0 (shown 0 none)) (withGroup (.nominated 7) .immediate (base .config))).ptab.get 0).group = some 0
          ∧ ((withGroup (.nominated 7) .immediate (base .config)).groupState 0).Locks)
      ∧ ¬ ((withRecord (.staged 0 (shown 0 none)) (base .config)).groupState 0).Locks
      ∧ ∀ r ∈ [Placement.staged 0 (shown 0 none), .live 0 (shown 0 none) 1 1 none, .live 0 (shown 0 none) 1 1 (some .retire),
          .live 0 (shown 0 none) 1 1 (some (.replace (shown 0 none) true)), .fading 0 (shown 2 none) 1 1 5],
          (withRecord r (base .config)).ptab.get 0 = r := by
  refine ⟨?_, by decide +kernel, ⟨by decide +kernel, locked_nominated _ _ _⟩, unlocked (by decide +kernel), by decide +kernel⟩
  simp only [State.Takes]
  decide +kernel

theorem witness_PlacementWithdrawn :
    ((base .running).Takes 0 15 ∧ 128 ≤ 128) ∧ (base .running).ptab.get 0 = .free
      ∧ (((withRecord (.staged 0 (shown 0 none)) (withGroup (.inDoubt 7) .immediate (base .running))).ptab.get 0).group = some 0
          ∧ ((withGroup (.inDoubt 7) .immediate (base .running)).groupState 0).Locks)
      ∧ ¬ ((withRecord (.staged 0 (shown 0 none)) (base .running)).groupState 0).Locks
      ∧ ∀ r ∈ [Placement.staged 0 (shown 0 none), .live 0 (shown 0 none) 1 1 none, .live 0 (shown 0 none) 1 1 (some .retire),
          .live 0 (shown 0 none) 1 1 (some (.replace (shown 0 none) true)), .fading 0 (shown 2 none) 1 1 5],
          (withRecord r (base .running)).ptab.get 0 = r := by
  refine ⟨?_, by decide +kernel, ⟨by decide +kernel, locked_inDoubt _ _ _⟩, unlocked (by decide +kernel), by decide +kernel⟩
  simp only [State.Takes]
  decide +kernel

theorem witness_PlacementsReported :
    ((base .config).Takes 0 16 ∧ 128 ≤ 128) ∧ (base .config).ptab.get 0 = .free
      ∧ (∀ r ∈ [Placement.staged 0 (shown 0 none), .live 0 (shown 0 none) 1 1 none, .live 0 (shown 0 none) 1 1 (some .retire),
          .live 0 (shown 0 none) 1 1 (some (.replace (shown 0 none) true)), .fading 0 (shown 2 none) 1 1 5],
          (withRecord r (base .config)).ptab.get 0 = r ∧ r ≠ .free
            ∧ ((withRecord r (base .config)).surface (shown 0 none).surface).desc = some plainDesc)
      ∧ ((base .config).Takes 0 17 ∧ 16383 < 16384 ∧ 16383 ≤ 16383) := by
  refine ⟨?_, by decide +kernel, by decide +kernel, ?_⟩
  · simp only [State.Takes]
    decide +kernel
  · simp only [State.Takes]
    decide +kernel

/-- Frame 10 on a locked part. -/
def atTen (s : State) : State := { s with csu := { s.csu with frame := 10 } }

theorem no_slots_named (s : State) (h : s.ptab = Table.replicate 128 .free) (i : SurfaceId) : s.slotCount i = 0 := by
  simp [State.slotCount, h, Table.replicate, Placement.slots]

theorem base_refsInv (p : Phase) : (base p).RefsInv := by
  refine ⟨fun i => ?_, fun i _ => no_slots_named _ rfl i⟩
  rw [no_slots_named _ rfl i]
  show ((Table.replicate 256 (⟨.empty, 0⟩ : SurfaceRec)).get i).refs = 0
  rw [Table.get_replicate]

/-- A part in frame 10 whose record 0, at its end, holds a pending REPLACE of the NOMINATED group. -/
def losing (fadeOut : Nat) : State :=
  let s := atTen (withRecord (.live 0 (shown fadeOut (some 9)) 1 1 (some (.replace (shown 0 none) true)))
    (withGroup (.nominated 9) .immediate (base .running)))
  { s with cvb := { s.cvb with prep := .complete 0 } }

theorem witness_RecordsEnd :
    (base .running).csu.sync = .locked ∧ (slave .running .lost).csu.sync ≠ .locked ∧ (base .running).RefsInv
      ∧ (∀ r ∈ [Placement.free, .staged 0 (shown 0 none), .fading 0 (shown 2 none) 1 1 8, .fading 0 (shown 3 none) 1 1 8,
          .live 0 (shown 0 (some 9)) 1 1 none, .live 0 (shown 0 (some 10)) 1 1 none],
          (atTen (withRecord r (base .running))).ptab.get 0 = r)
      ∧ ((shown 0 (some 9)).endAge = some 9 ∧ 9 ≤ ((10 : Frame) - 1).toNat)
      ∧ (∀ e, (shown 0 (some 10)).endAge = some e → ((10 : Frame) - 1).toNat < e)
      ∧ (shown 2 none).fadeOut ≤ ((10 : Frame) - 8).toNat
      ∧ (∀ fadeOut ∈ [0, 2], (losing fadeOut).ptab.get 0 = .live 0 (shown fadeOut (some 9)) 1 1 (some (.replace (shown 0 none) true))
          ∧ (losing fadeOut).nominatedGroup = some 0 ∧ (losing fadeOut).cvb.prep = .complete 0 ∧ (losing fadeOut).phase ≠ .starting)
      ∧ ((losing 0).evaluate.ptab.get 0 = .free ∧ (losing 0).evaluate.cvb.prep = .complete 0)
      ∧ ((losing 2).evaluate.ptab.get 0 ≠ .free
          ∧ ((losing 2).evaluate.evb.flags.get 14).map FlagRec.detail = some (.pendingDiscarded 0 0)) := by
  refine ⟨rfl, by decide +kernel, base_refsInv _, by decide +kernel, by decide +kernel, ?_, by decide +kernel, by decide +kernel,
    by decide +kernel, by decide +kernel⟩
  rintro e ⟨⟩
  decide

/-! ### Groups in order, on both roles -/

/-- A row that answers a next state leaves `after`. -/
theorem runs_next {c : Instr} {s : State} (h : (match exec c s with | .next _ => true | _ => false) = true) :
    exec c s = .next (after c s) := by
  unfold after
  cases hx : exec c s <;> simp_all

theorem withGroup_first (st : GroupState) (t : Trigger) (s : State) : (withGroup st t s).groupState 0 = st := by
  simp [withGroup, State.groupState, Table.get_set_self]

theorem only_first_holds {s : State} (h : ∀ g : GroupId, g ≠ 0 → s.groupState g = .idle) (g k : GroupId)
    (hg : (s.groupState g).holdsRecords = true) (hk : (s.groupState k).holdsRecords = true) : g = k := by
  have zero : ∀ j : GroupId, (s.groupState j).holdsRecords = true → j = 0 := fun j hj => by
    by_cases h0 : j = 0
    · exact h0
    · rw [h j h0] at hj
      cases hj
  rw [zero g hg, zero k hk]

/-- A slave whose groups are IDLE but for group 0. -/
theorem slave_groupsInv (s : State) (hr : s.clc.straps.role = .slave) (hd : s.due = []) (hn : s.csu.nomination = none)
    (hi : ∀ g : GroupId, g ≠ 0 → s.groupState g = .idle)
    (h0 : s.groupState 0 = .idle ∨ (s.csu.sync = .locked ∧ ∃ f, s.groupState 0 = .nominated f)
      ∨ (s.csu.sync = .lost ∧ ∃ f, s.groupState 0 = .inDoubt f)) : s.GroupsInv := by
  have first : ∀ g : GroupId, s.groupState g ≠ .idle → g = 0 := fun g hg => by
    by_cases h : g = 0
    · exact h
    · exact absurd (hi g h) hg
  have all : ∀ g : GroupId, s.groupState g = .idle ∨ (s.csu.sync = .locked ∧ ∃ f, s.groupState g = .nominated f)
      ∨ (s.csu.sync = .lost ∧ ∃ f, s.groupState g = .inDoubt f) := fun g => by
    by_cases h : g = 0
    · exact h ▸ h0
    · exact .inl (hi g h)
  refine ⟨only_first_holds hi, fun hm => absurd (hr.symm.trans hm) (by decide), fun _ => ⟨hd, hn, fun g => ?_, fun g f h => ?_,
    fun g f h => ?_⟩⟩
  all_goals rcases all g with hs | ⟨hl, k, hs⟩ | ⟨hl, k, hs⟩ <;> simp_all

/-- A master whose groups are IDLE but for group 0. -/
theorem master_groups (s : State) (hl : s.csu.sync = .locked) (hi : ∀ g : GroupId, g ≠ 0 → s.groupState g = .idle)
    (h0 : (s.groupState 0 = .idle ∨ s.groupState 0 = .armed) ∧ s.due = [] ∧ s.csu.nomination = none
      ∨ s.groupState 0 = .due ∧ s.due = [0] ∧ s.csu.nomination = none
      ∨ ∃ f, s.groupState 0 = .nominated f ∧ s.due = [] ∧ s.csu.nomination = some (0, f)) : s.MasterGroups := by
  refine ⟨hl, fun g f h => ?_, ?_, fun g => ?_, fun g f => ?_⟩
  · by_cases hg : g = 0
    · subst hg
      rcases h0 with ⟨h1 | h1, _⟩ | ⟨h1, _⟩ | ⟨k, h1, _⟩ <;> simp_all
    · simp_all
  · rcases h0 with ⟨_, h1, _⟩ | ⟨_, h1, _⟩ | ⟨k, _, h1, _⟩ <;> simp [h1]
  · by_cases hg : g = 0
    · subst hg
      rcases h0 with ⟨h1 | h1, h2, _⟩ | ⟨h1, h2, _⟩ | ⟨k, h1, h2, _⟩ <;> simp [h1, h2]
    · rcases h0 with ⟨_, h2, _⟩ | ⟨_, h2, _⟩ | ⟨k, _, h2, _⟩ <;> simp [h2, hi g hg, hg]
  · by_cases hg : g = 0
    · subst hg
      rcases h0 with ⟨h1 | h1, _, h3⟩ | ⟨h1, _, h3⟩ | ⟨k, h1, _, h3⟩ <;> simp [h1, h3]
    · have hne : ¬ 0 = g := fun h => hg h.symm
      rcases h0 with ⟨_, _, h3⟩ | ⟨_, _, h3⟩ | ⟨k, _, _, h3⟩ <;> simp [h3, hi g hg, hne]

/-- A running locked slave that has had its last word at time 0, with group 0 in a state. -/
def heard (st : GroupState) : State :=
  let s := withGroup st .immediate (slave .running .locked)
  { s with csu := { s.csu with lossTimer := some 0 } }

theorem heard_others (st : GroupState) (g : GroupId) (h : g ≠ 0) : (heard st).groupState g = .idle := by
  have h' : ¬ 0 = g := fun e => h e.symm
  show ((Table.set (Table.replicate 8 GroupRec.powerOn) 0 _).get g).state = .idle
  rw [Table.get_set, if_neg h', Table.get_replicate]
  rfl

theorem heard_first (st : GroupState) : (heard st).groupState 0 = st := by
  simp [heard, withGroup, State.groupState, Table.get_set_self]

theorem heard_idle_inv : (heard .idle).GroupsInv :=
  slave_groupsInv _ rfl rfl rfl (heard_others _) (.inl (heard_first _))

theorem heard_nominated_inv (f : Frame) : (heard (.nominated f)).GroupsInv :=
  slave_groupsInv _ rfl rfl rfl (heard_others _) (.inr (.inl ⟨rfl, f, heard_first _⟩))

/-- A running master whose timing runs, with group 0 in a state, a due queue and a nomination. -/
def leading (st : GroupState) (t : Trigger) (due : List GroupId) (nomination : Option (GroupId × Frame)) : State :=
  let s := withGroup st t (base .running)
  { s with due := due, csu := { s.csu with timing := true, nomination := nomination } }

theorem leading_others (st : GroupState) (t : Trigger) (due : List GroupId) (n : Option (GroupId × Frame)) (g : GroupId)
    (h : g ≠ 0) : (leading st t due n).groupState g = .idle := by
  have h' : ¬ 0 = g := fun e => h e.symm
  show ((Table.set (Table.replicate 8 GroupRec.powerOn) 0 _).get g).state = .idle
  rw [Table.get_set, if_neg h', Table.get_replicate]
  rfl

theorem leading_first (st : GroupState) (t : Trigger) (due : List GroupId) (n : Option (GroupId × Frame)) :
    (leading st t due n).groupState 0 = st := by
  simp [leading, withGroup, State.groupState, Table.get_set_self]

/-! ### Witnesses: groups, cuts and the chain -/

theorem witness_GroupSet :
    ((base .config).Takes 0 18 ∧ 8 ≤ 8) ∧ (leading .armed (.frame 9) [] none).groupState 0 ≠ .idle
      ∧ ((base .config).groupState 7 = .idle ∧ (2 < 3 ∨ (3 = 1 ∧ (3 < 0 ∨ 3 < 0)) ∨ 255 < 0)
          ∧ (2 < 1 ∨ (1 = 1 ∧ (3 < 4 ∨ 3 < 0)) ∨ 255 < 0) ∧ (2 < 0 ∨ (0 = 1 ∧ (3 < 0 ∨ 3 < 0)) ∨ 255 < 256))
      ∧ (¬ (2 < 0 ∨ (0 = 1 ∧ (3 < 9 ∨ 3 < 9)) ∨ 255 < 0) ∧ ¬ (2 < 1 ∨ (1 = 1 ∧ (3 < 3 ∨ 3 < 3)) ∨ 255 < 255)
          ∧ ¬ (2 < 2 ∨ (2 = 1 ∧ (3 < 9 ∨ 3 < 9)) ∨ 255 < 255))
      ∧ State.reset.phase = .starting := by
  simp only [State.Takes]
  and_intros <;> decide +kernel

theorem witness_GroupCommitted :
    (base .config).Takes 0 19 ∧ (slave .running .locked).Takes 0 19 ∧ 8 ≤ 8
      ∧ ¬ (slave .running .locked).clc.straps.role = .master
      ∧ ((base .config).clc.straps.role = .master ∧ (leading .due .immediate [0] none).groupState 0 ≠ .idle)
      ∧ ((leading .idle .immediate [] none).groupState 0 = .idle
          ∧ ((leading .idle .immediate [] none).groups.get 0).trigger = .immediate)
      ∧ ((leading .idle (.cue 3 .level) [] none).groupState 0 = .idle
          ∧ ((leading .idle (.cue 3 .level) [] none).groups.get 0).trigger = .cue 3 .level)
      ∧ ((leading .idle (.frame 2147483647) [] none).groupState 0 = .idle
          ∧ ((leading .idle (.frame 2147483647) [] none).groups.get 0).trigger = .frame 2147483647) := by
  simp only [State.Takes]
  and_intros <;> decide +kernel

theorem witness_GroupCancelled :
    (base .config).Takes 0 20 ∧ (slave .config .locked).Takes 0 20 ∧ 8 ≤ 8
      ∧ (slave .config .locked).clc.straps.role = .slave ∧ (base .config).clc.straps.role = .master
      ∧ (base .config).groupState 7 = .idle ∧ (leading (.nominated 5) .immediate [] (some (0, 5))).groupState 0 = .nominated 5
      ∧ (leading .armed (.frame 5) [] none).groupState 0 = .armed ∧ (leading .due .immediate [0] none).groupState 0 = .due := by
  simp only [State.Takes]
  and_intros <;> decide +kernel

theorem witness_TriggersFire :
    ((base .starting).cbi.cue.get 0 = none ∧ 1999 < 2000)
      ∧ (let s := { leading .armed (.cue 3 .any) [] none with
            cbi := { (base .running).cbi with cue := Table.replicate 4 (some false) } };
          2000 ≤ 2000 ∧ true = (true != s.cbi.inversion.get 3) ∧ s.cbi.cue.get 3 = some (!true)
            ∧ s.cbi.cue.get 3 = some (false != s.cbi.inversion.get 3)
            ∧ (s.clc.straps.role = .master ∧ (s.groups.get 0).state = .armed ∧ (s.groups.get 0).trigger = .cue 3 .any))
      ∧ (let s := leading .armed (.frame 1) [] none;
          s.clc.straps.role = .master ∧ s.csu.timing = true ∧ (s.groups.get 0).state = .armed
            ∧ (s.groups.get 0).trigger = .frame (s.csu.frame + 1)) := by
  decide +kernel

/-- Thirteen records that all meet tile 2. -/
def crowded : State :=
  { base .running with
    held := ⟨(base .running).geo, (Table.replicate 16 none).set 2 (some ⟨0, 0, 16, 16⟩)⟩
    ptab := Table.ofFn fun i => if i.val < 13 then .live 0 (shown 0 none) 1 1 none else .free }

/-- Every kind of record of a group that a cut meets, the states of the preparation, and a cut that leaves a record out. -/
theorem witness_CutsAndAbandons :
    (∀ r ∈ [Placement.staged 0 (shown 0 none), .live 0 (shown 0 none) 1 1 none,
        .live 0 (shown 0 none) 1 1 (some (.replace (shown 0 none) true)),
        .live 0 (shown 0 none) 1 1 (some (.replace (shown 0 (some 9)) false)),
        .live 0 (shown 0 none) 1 1 (some .retire), .fading 0 (shown 2 none) 1 1 5],
        (withRecord r (base .running)).ptab.get 0 = r ∧ ((withRecord r (base .running)).ptab.get 0).group ≠ some 1)
      ∧ ((shown 0 (some 9)).endAge = some 9 ∧ 9 ≤ ((10 : Frame) - 1).toNat)
      ∧ (∀ e, (shown 0 (some 9)).endAge = some e → ((9 : Frame) - 1).toNat < e)
      ∧ (base .running).RefsInv ∧ (∀ h, h ≠ 0 → ¬ ((heard (.nominated 7)).groupState h).Locks)
      ∧ (base .running).phase ≠ .starting ∧ (base .running).cvb.prep = .none
      ∧ { base .running with cvb := { (base .running).cvb with prep := .inFlight 0 } }.cvb.prep = .inFlight 0
      ∧ (∀ h, { base .running with cvb := { (base .running).cvb with prep := .complete h } }.cvb.prep = .complete h)
      ∧ ((1 : GroupId) ≠ 0 ∧ (crowded.executeCut 0 5).cvb.crowded = [2]) := by
  refine ⟨by decide +kernel, by decide, ?_, base_refsInv _, fun h hh => ?_, by decide, rfl, rfl, fun _ => rfl, by decide +kernel⟩
  · rintro e ⟨⟩
    decide
  · rw [heard_others _ h hh]
    exact unlocked rfl

theorem witness_MasterBoundaryDecides :
    (∀ s ∈ [leading .idle .immediate [] none, leading .armed (.frame 1) [] none, leading .due .immediate [0] none,
        leading (.nominated 4294967267) .immediate [] (some (0, 4294967267))],
        s.clc.straps.role = .master ∧ s.csu.timing = true ∧ s.MasterGroups)
      ∧ (let s := leading (.nominated 4294967267) .immediate [] (some (0, 4294967267));
          s.csu.nomination = some (0, 4294967267)
            ∧ (s.groups.get 0).commitTimeout ≤ (s.csu.frame + 1 - 4294967267).toNat)
      ∧ (leading .due .immediate [0] none).due = [0] ∧ (leading .idle .immediate [] none).csu.nomination = none
      ∧ (let s := leading (.nominated 4294967268) .immediate [] (some (0, 4294967268));
          ∀ g since, s.csu.nomination = some (g, since) →
            (s.csu.frame + 1 - since).toNat < (s.groups.get g).commitTimeout) := by
  refine ⟨fun s hs => ?_, by decide +kernel, rfl, rfl, ?_⟩
  · simp only [List.mem_cons, List.not_mem_nil, or_false] at hs
    rcases hs with rfl | rfl | rfl | rfl
    · exact ⟨rfl, rfl, master_groups _ rfl (leading_others _ _ _ _) (.inl ⟨.inl (leading_first _ _ _ _), rfl, rfl⟩)⟩
    · exact ⟨rfl, rfl, master_groups _ rfl (leading_others _ _ _ _) (.inl ⟨.inr (leading_first _ _ _ _), rfl, rfl⟩)⟩
    · exact ⟨rfl, rfl, master_groups _ rfl (leading_others _ _ _ _) (.inr (.inl ⟨leading_first _ _ _ _, rfl, rfl⟩))⟩
    · exact ⟨rfl, rfl, master_groups _ rfl (leading_others _ _ _ _) (.inr (.inr ⟨_, leading_first _ _ _ _, rfl, rfl⟩))⟩
  · intro s g since h
    obtain ⟨rfl, rfl⟩ := Prod.mk.inj (Option.some.inj h)
    decide +kernel

/-- A word of a kind, with a frame number, a cut sequence and a last cut. -/
def word (k : WordKind) (f : Frame) (sequence : BitVec 4) (last : Option (GroupId × Frame)) : SyncWord := ⟨k, f, sequence, last, true⟩

/-- The bytes of a word whose frame numbers are below 256, with 0 for the bytes that are not meaningful (10, section 10.6). -/
def sent (w : SyncWord) : List Byte :=
  let head : List Byte := match w.kind with | .plain => [0, 0] | .nominate g => [1, g.val] | .cut g => [2, g.val] | .abandon g => [3, g.val]
  let last : List Byte := match w.lastCut with | none => [255, 0, 0, 0, 0] | some (g, f) => [g.val, f.setWidth 8, 0, 0, 0]
  let body := head ++ [w.frame.setWidth 8, 0, 0, 0, w.cutSequence.setWidth 8] ++ last ++ [if w.blackout then 1 else 0]
  body ++ [body.foldl (· + ·) 0]

theorem witness_LockedWordTaken :
    parseSyncWord (sent (word .plain 1 0 none)) = some (word .plain 1 0 none)
      ∧ ((slave .starting .locked).clc.straps.role = .slave ∧ (slave .starting .locked).phase = .starting)
      ∧ ((slave .config .locked).clc.straps.role = .slave ∧ (slave .config .locked).phase ≠ .starting
          ∧ (slave .config .locked).csu.sync = .locked ∧ (slave .config .locked).csu.blackoutFlag = false)
      ∧ ¬ (1 ≤ ((0 : Frame) - (slave .config .locked).csu.frame).toNat
          ∧ ((0 : Frame) - (slave .config .locked).csu.frame).toNat ≤ 2147483647)
      ∧ ((heard .idle).clc.straps.role = .slave ∧ (heard .idle).phase ≠ .starting ∧ (heard .idle).csu.sync = .locked
          ∧ (heard .idle).GroupsInv) := by
  refine ⟨by decide +kernel, by decide +kernel, by decide +kernel, by decide +kernel, rfl, by decide, rfl, heard_idle_inv⟩

/-- A word that arrives at a locked slave whose groups are in order. -/
def Arrives (s : State) (w : SyncWord) : Prop :=
  parseSyncWord (sent w) = some w ∧ s.clc.straps.role = .slave ∧ s.phase ≠ .starting ∧ s.csu.sync = .locked ∧ s.GroupsInv
    ∧ ∃ t, exec (.syncWordArrival (sent w)) s = .next t

/-- A slave that holds group 0 NOMINATED and has given readiness, or not, with a desync hold or none. -/
def holding (ready : Bool) (hold : Option GroupId) : State :=
  { heard (.nominated 0) with csu := { (heard (.nominated 0)).csu with readinessGiven := ready, desyncHold := hold } }

theorem holding_inv (ready : Bool) (hold : Option GroupId) : (holding ready hold).GroupsInv :=
  slave_groupsInv _ rfl rfl rfl (heard_others _) (.inr (.inl ⟨rfl, 0, heard_first _⟩))

theorem witness_WordsMoveGroups :
    (Arrives (heard .idle) (word (.nominate 3) 9 0 none) ∧ ∀ h, ¬ ((heard .idle).groupState h).Locks)
      ∧ (Arrives (holding false none) (word (.nominate 3) 1 0 none) ∧ (holding false none).groupState 0 = .nominated 0)
      ∧ Arrives (holding true none) (word (.cut 0) 1 1 (some (0, 1)))
      ∧ Arrives (holding false none) (word (.abandon 0) 1 0 none)
      ∧ (Arrives (holding false (some 1)) (word (.abandon 1) 1 0 none) ∧ (holding false (some 1)).groupState 1 = .idle)
      ∧ Arrives (holding false none) (word (.abandon 1) 1 0 none)
      ∧ Arrives (heard .idle) (word .plain 9 0 none)
      ∧ Arrives (holding false none) (word .plain 2 0 none)
      ∧ (Arrives (holding true none) (word .plain 2 1 (some (0, 1))) ∧ (holding true none).csu.readinessGiven = true)
      ∧ (Arrives (holding false none) (word .plain 2 1 (some (0, 1))) ∧ (holding false none).csu.readinessGiven = false)
      ∧ (∀ k ∈ [WordKind.nominate 3, .nominate 0, .abandon 3, .abandon 0], Arrives (holding true none) (word k 2 0 none)
          ∧ Arrives (holding true none) (word k 2 1 (some (0, 1))) ∧ Arrives (holding false none) (word k 1 2 none)
          ∧ Arrives (heard .idle) (word k 1 2 none))
      ∧ Arrives (holding false (some 3)) (word (.abandon 3) 1 2 none) := by
  have idle : ∀ w, parseSyncWord (sent w) = some w →
      (match exec (.syncWordArrival (sent w)) (heard .idle) with | .next _ => true | _ => false) = true →
      Arrives (heard .idle) w := fun w hw hx => ⟨hw, rfl, Phase.noConfusion, rfl, heard_idle_inv, _, runs_next hx⟩
  have held : ∀ ready hold w, parseSyncWord (sent w) = some w →
      (match exec (.syncWordArrival (sent w)) (holding ready hold) with | .next _ => true | _ => false) = true →
      Arrives (holding ready hold) w := fun ready hold w hw hx =>
    ⟨hw, rfl, Phase.noConfusion, rfl, holding_inv ready hold, _, runs_next hx⟩
  refine ⟨⟨idle _ (by decide) (by decide +kernel), fun h => ?_⟩, ⟨held _ _ _ (by decide) (by decide +kernel), heard_first _⟩,
    held _ _ _ (by decide) (by decide +kernel), held _ _ _ (by decide) (by decide +kernel),
    ⟨held _ _ _ (by decide) (by decide +kernel), by decide +kernel⟩, held _ _ _ (by decide) (by decide +kernel),
    idle _ (by decide) (by decide +kernel), held _ _ _ (by decide) (by decide +kernel),
    ⟨held _ _ _ (by decide) (by decide +kernel), rfl⟩, ⟨held _ _ _ (by decide) (by decide +kernel), rfl⟩, fun k hk => ?_,
    held _ _ _ (by decide) (by decide +kernel)⟩
  rotate_left
  · simp only [List.mem_cons, List.not_mem_nil, or_false] at hk
    rcases hk with rfl | rfl | rfl | rfl <;>
      exact ⟨held _ _ _ (by decide) (by decide +kernel), held _ _ _ (by decide) (by decide +kernel),
        held _ _ _ (by decide) (by decide +kernel), idle _ (by decide) (by decide +kernel)⟩
  by_cases h0 : h = 0
  · rw [h0, heard_first]
    exact unlocked rfl
  · rw [heard_others _ h h0]
    exact unlocked rfl

theorem witness_ReadinessFollowsConditions :
    (heard (.nominated 7)).GroupsInv
      ∧ ((heard (.nominated 7)).clc.straps.role = .slave ∧ (heard (.nominated 7)).csu.lossTimer = some 0
          ∧ (heard (.nominated 7)).now - 0 ≤ 2 * (Config.ticksPerSecond / (heard (.nominated 7)).rateNow.hertz))
      ∧ { heard (.nominated 7) with cvb := { (heard (.nominated 7)).cvb with prep := .inFlight 0 } }.cvb.prep = .inFlight 0
      ∧ ∀ g, (heard .idle).cvb.prep ≠ .inFlight g := by
  refine ⟨heard_nominated_inv 7, by decide +kernel, rfl, fun g h => ?_⟩
  cases h

theorem witness_SlaveOwnTiming :
    ((heard .idle).clc.straps.role = .slave ∧ (heard .idle).csu.sync = .locked ∧ (heard .idle).csu.lossTimer = some 0)
      ∧ (let s := { slave .config .unlocked with csu := { (slave .config .unlocked).csu with timing := true } };
          s.clc.straps.role = .slave ∧ s.csu.sync ≠ .locked ∧ s.csu.timing = true ∧ s.phase ≠ .starting) := by
  decide +kernel

theorem witness_SyncIsLost :
    ((heard .idle).GroupsInv ∧ ∀ g, ¬ ((heard .idle).groupState g).Locks)
      ∧ ((holding true none).GroupsInv ∧ (holding true none).groupState 0 = .nominated 0
          ∧ (holding true none).csu.readinessGiven = true ∧ (holding true none).phase ≠ .starting)
      ∧ ((holding false none).GroupsInv ∧ (holding false none).csu.readinessGiven = false)
      ∧ ∀ s ∈ [heard .idle, holding true none, holding false none],
          s.clc.straps.role = .slave ∧ s.csu.sync = .locked ∧ s.csu.lossTimer = some 0 := by
  refine ⟨⟨heard_idle_inv, fun g => ?_⟩, ⟨holding_inv _ _, heard_first _, rfl, by decide⟩, ⟨holding_inv _ _, rfl⟩, by decide +kernel⟩
  by_cases h0 : g = 0
  · rw [h0, heard_first]
    exact unlocked rfl
  · rw [heard_others _ g h0]
    exact unlocked rfl

/-- A running slave out of lock that has counted `run` words, the last of frame 5 at time 0, at this time. -/
def counting (sync : SyncState) (st : GroupState) (run now : Nat) : State :=
  { heard st with
    now := now
    csu := { (heard st).csu with sync := sync, lossTimer := none, lockRun := run, lastCounted := some (5, 0), timing := true } }

theorem counts_on (sync : SyncState) (st : GroupState) (run now : Nat) (w : SyncWord) (h0 : run ≠ 0) (hf : w.frame = 6)
    (hn : now < 1500000) : (counting sync st run now).CountsTo w (run + 1) := by
  have ok : ∃ f time, (counting sync st run now).csu.lastCounted = some (f, time) ∧ w.frame = f + 1
      ∧ (counting sync st run now).now - time
        < 3 * (Config.ticksPerSecond / (counting sync st run now).rateNow.hertz) :=
    ⟨5, 0, rfl, by rw [hf]; rfl, by show now - 0 < 3 * (30000000 / 60); omega⟩
  refine ⟨fun h => ?_, fun _ _ => rfl⟩
  rcases h with h | h
  · exact absurd h h0
  · exact absurd ok h

/-- Three frames after the last word counted, and after a jump of the frame number, a word begins the count again. -/
theorem counts_afresh (sync : SyncState) (st : GroupState) (run now : Nat) (w : SyncWord)
    (hb : 1500000 ≤ now ∨ w.frame ≠ 6) : (counting sync st run now).CountsTo w 1 := by
  have no : ¬ ∃ f time, (counting sync st run now).csu.lastCounted = some (f, time) ∧ w.frame = f + 1
      ∧ (counting sync st run now).now - time
        < 3 * (Config.ticksPerSecond / (counting sync st run now).rateNow.hertz) := by
    rintro ⟨f, time, hc, hf, ht⟩
    cases hc
    rcases hb with hb | hb
    · change now - 0 < 3 * (30000000 / 60) at ht
      omega
    · exact hb hf
  exact ⟨fun _ => rfl, fun _ h => absurd h no⟩

theorem counting_inDoubt_inv (f : Frame) (run now : Nat) : (counting .lost (.inDoubt f) run now).GroupsInv :=
  slave_groupsInv _ rfl rfl rfl (heard_others _) (.inr (.inr ⟨rfl, f, heard_first _⟩))

theorem witness_WordsCountedToRelock :
    ((counting .unlocked .idle 2 1499999).CountsTo (word .plain 6 0 none) 3 ∧ 3 < 4)
      ∧ (counting .lost .idle 3 1500000).CountsTo (word .plain 6 0 none) 1
      ∧ (counting .lost .idle 3 9).CountsTo (word .plain 7 0 none) 1
      ∧ (∀ w ∈ [word .plain 6 0 none, word .plain 6 1 (some (0, 4)), word .plain 6 2 (some (0, 4)), word (.nominate 3) 6 0 none,
          word (.nominate 0) 6 1 (some (0, 4)), word (.cut 0) 6 1 (some (0, 6)), word (.cut 1) 6 2 (some (1, 6)), word (.abandon 0) 6 0 none,
          word (.abandon 0) 6 2 none],
          parseSyncWord (sent w) = some w ∧ (counting .lost (.inDoubt 3) 3 1499999).CountsTo w 4
            ∧ (counting .unlocked .idle 3 1499999).CountsTo w 4)
      ∧ ((counting .lost (.inDoubt 3) 3 1499999).GroupsInv ∧ (counting .lost (.inDoubt 3) 3 1499999).groupState 0 = .inDoubt 3)
      ∧ ((counting .unlocked .idle 3 1499999).GroupsInv ∧ ∀ g, ¬ ((counting .unlocked .idle 3 1499999).groupState g).Locks)
      ∧ ∀ s ∈ [counting .lost (.inDoubt 3) 3 1499999, counting .unlocked .idle 3 1499999, counting .unlocked .idle 2 1499999],
          s.clc.straps.role = .slave ∧ s.phase ≠ .starting ∧ s.csu.sync ≠ .locked := by
  refine ⟨⟨counts_on _ _ 2 _ _ (by decide) rfl (by decide), by decide⟩, counts_afresh _ _ _ _ _ (.inl (by decide)),
    counts_afresh _ _ _ _ _ (.inr (by decide)), fun w hw => ?_, ⟨counting_inDoubt_inv _ _ _, heard_first _⟩,
    ⟨slave_groupsInv _ rfl rfl rfl (heard_others _) (.inl (heard_first _)), fun g => ?_⟩, by decide +kernel⟩
  · have hp : parseSyncWord (sent w) = some w ∧ w.frame = 6 := by
      revert w
      decide
    exact ⟨hp.1, counts_on _ _ 3 _ _ (by decide) hp.2 (by decide), counts_on _ _ 3 _ _ (by decide) hp.2 (by decide)⟩
  · by_cases h0 : g = 0
    · subst h0
      exact (congrArg GroupState.Locks (heard_first .idle)).mpr_not (unlocked rfl)
    · exact (congrArg GroupState.Locks (heard_others .idle g h0)).mpr_not (unlocked rfl)

/-! ### Witnesses: coverage, ports, the store, blackout -/

theorem witness_ListsBuilt :
    (((List.finRange 128).map fun i => ((i, shown 0 none) : Member)).map Prod.fst).Nodup
      ∧ ((withRecord (.live 0 (shown 2 none) 1 1 (some .retire)) (base .running)).ptab.get 0
          = .live 0 (shown 2 none) 1 1 (some .retire) ∧ (shown 2 none).fadeOut ≠ 0) := by
  decide +kernel

/-- An entry that draws surface 0 at full weight. -/
def plainEntry (weight : Nat) : Entry := ⟨shown 0 none, 0, weight, some plainDesc⟩

theorem witness_CompositionArithmetic :
    (∀ x ∈ [0, 15], 1 ≤ (shown 0 none).dw ∧ 1 ≤ (shown 0 none).sw
        ∧ (shown 0 none).stepX = (shown 0 none).sw * 65536 / (shown 0 none).dw ∧ (shown 0 none).stepY = (shown 0 none).sh * 65536 / (shown 0 none).dh
        ∧ (shown 0 none).dx ≤ x ∧ x < (shown 0 none).dx + (shown 0 none).dw)
      ∧ ((shown 0 none).alpha ≤ 256 ∧ 256 ≤ 256 ∧ 255 ≤ 255 ∧ 31 ≤ 31 ∧ 63 ≤ 63)
      ∧ (plainEntry 1).colourAt (fun _ => 7) 15 15 = some ⟨7, 7, 7⟩
      ∧ ((plainEntry 0).colourAt (fun _ => 7) 15 15 = none ∧ (plainEntry 1).colourAt (fun _ => 7) 16 15 = none)
      ∧ (plainDesc.format = .full ∧ { plainDesc with format := .half }.format = .half)
      ∧ sourceColour (fun _ => 7) { plainDesc with key := some (.full 7 7 7) } 0 = none
      ∧ (let f := { FrameRec.powerOn with originX := 15, panelW := 1 };
          (0 < (plainEntry 1).weight ∧ (shown 0 none).dy ≤ f.originY + 15 ∧ f.originY + 15 < (shown 0 none).dy + (shown 0 none).dh
            ∧ max f.originX (shown 0 none).dx < min (f.originX + f.panelW) ((shown 0 none).dx + (shown 0 none).dw))
          ∧ (plainEntry 1).run f 15 = some (1020, 4) ∧ (plainEntry 1).run f 16 = none ∧ (plainEntry 0).run f 15 = none)
      ∧ ∀ e ∈ [plainEntry 0, plainEntry 256], e.weight ≤ 256 := by
  decide +kernel

theorem witness_PictureSettings :
    (base .running).Takes 0 23 ∧ (base .config).Takes 15 25
      ∧ (16 < 17 ∧ 4 < 5 ∧ ∃ c : Rgb, (some ⟨0, 256, 0⟩ : Option Rgb) = some c ∧ (255 < c.red ∨ 255 < c.green ∨ 255 < c.blue))
      ∧ (16 ≤ 16 ∧ (4, Mode.idle) ∈ [(0, Mode.picture), (1, .flat), (2, .black), (3, .hold), (4, .idle)]
          ∧ ∀ c : Rgb, (some ⟨255, 255, 255⟩ : Option Rgb) = some c → c.red ≤ 255 ∧ c.green ≤ 255 ∧ c.blue ≤ 255) := by
  simp only [State.Takes]
  refine ⟨by decide +kernel, by decide +kernel, ⟨by decide, by decide, _, rfl, by decide⟩, by decide, by decide, ?_⟩
  rintro c h
  cases h
  decide

theorem witness_PortsSwitched :
    (base .config).Takes 0 24 ∧ (16 < 17 ∨ 1 < 1) ∧ (16 < 16 ∨ 1 < 2) ∧ (16 ≤ 16 ∧ 1 ≤ 1)
      ∧ (withPort ⟨.draining .beforeBlack false, 0, .ok, false⟩ (base .config)).ports.get 0
          = ⟨.draining .beforeBlack false, 0, .ok, false⟩
      ∧ (let s := withPort ⟨.training 3 4, 0, .ok, false⟩ (base .config);
          s.ports.get 0 = ⟨.training 3 4, 0, .ok, false⟩ ∧ (s.frames.get 0).kind = .none)
      ∧ ((base .config).PortChanges (withPort ⟨.powering 9, 0, .ok, false⟩ (base .config)) 0
          ∧ ∀ k, k ≠ 0 → ¬ (base .config).PortChanges (withPort ⟨.powering 9, 0, .ok, false⟩ (base .config)) k) := by
  simp only [State.Takes, State.PortChanges]
  and_intros <;> decide +kernel

theorem witness_PortsStep :
    (∀ p ∈ [Port.mk (.powering 9) 0 .ok false, ⟨.training 2 5, 0, .ok, false⟩, ⟨.training 3 5, 0, .ok, false⟩, ⟨.up, 2, .ok, false⟩,
        ⟨.draining .blackSent false, 0, .ok, false⟩, ⟨.draining .blackSent true, 0, .ok, false⟩, ⟨.training 3 4, 0, .ok, false⟩,
        ⟨.up, 1, .ok, false⟩, ⟨.off, 0, .ok, false⟩],
        (withPort p (base .running)).ports.get 0 = p)
      ∧ (5 ≤ 5 ∧ 2 < 3 ∧ 3 ≤ 3 ∧ 2 ≤ 2 ∧ 4 < 5 ∧ 1 < 2) ∧ (base .running).phase ≠ .starting := by
  decide +kernel

theorem witness_StatusesTaken :
    (∀ p ∈ [Port.mk .off 0 .ok false, ⟨.powering 9, 0, .ok, false⟩, ⟨.fault, 0, .ok, false⟩, ⟨.training 1 0, 0, .ok, false⟩,
        ⟨.up, 2, .hot, false⟩, ⟨.up, 0, .ok, true⟩, ⟨.lost, 3, .warm, false⟩, ⟨.draining .beforeBlack false, 0, .ok, false⟩],
        (withPort p (base .running)).ports.get 0 = p)
      ∧ (Temperature.ok ≠ .hot ∧ Temperature.warm ≠ .hot) ∧ (base .running).phase ≠ .starting := by
  decide +kernel

/-- A running part with tile 0 UP, placed and in PICTURE. -/
def picturing : State :=
  let s := withPort ⟨.up, 0, .ok, true⟩ (base .running)
  { s with
    tiles := s.tiles.modify 0 fun r => { r with mode := .picture }
    held := ⟨s.geo, s.held.rects.set 0 (some ⟨0, 0, 16, 16⟩)⟩ }

theorem witness_FramesOpened :
    ((withPort ⟨.up, 0, .ok, true⟩ (base .running)).closeBoundary.frames.get 0).kind ≠ .none
      ∧ ((base .running).closeBoundary.frames.get 0).kind = .none
      ∧ (picturing.closeBoundary.frames.get 0).kind = .picture ∧ picturing.held.rects.get 0 = some ⟨0, 0, 16, 16⟩
      ∧ (base .starting).phase = .starting
      ∧ (∀ p ∈ [Port.mk .lost 3 .ok false, ⟨.draining .blackSent true, 0, .ok, false⟩],
          let s := withPort p (base .running)
          s.PortChanges s.closeBoundary 0 ∧ ∀ k, k ≠ 0 → ¬ s.PortChanges s.closeBoundary k) := by
  simp only [State.PortChanges]
  decide +kernel

/-- A frame store controller that waits with an upload of four bytes, a fetch, and this budget. -/
def waitingStore (fetch : Bool) (owed : Bool) (budget : Nat) : Fsc :=
  { Fsc.powerOn with
    upload := some ⟨0, [1, 2, 3, 4], 0⟩
    fetches := if fetch then Fsc.powerOn.fetches.set 3 (some ⟨1, 90, [(4096, 300)]⟩) else Fsc.powerOn.fetches
    owed := owed
    budget := budget }

theorem witness_StoreGranted :
    { Fsc.powerOn with burst := some ⟨.load, 0, 4, 60⟩ }.burst ≠ none
      ∧ ((waitingStore true true 0).burst = none ∧ (waitingStore true true 0).upload = some ⟨0, [1, 2, 3, 4], 0⟩
          ∧ (waitingStore true true 0).owed = true)
      ∧ ((∀ t, (waitingStore false false 2).fetches.get t = none) ∧ 2 ≤ (waitingStore false false 2).budget)
      ∧ ((waitingStore true false 40).owed = false ∧ (waitingStore true false 40).fetches.get 3 = some ⟨1, 90, [(4096, 300)]⟩
          ∧ ∀ v, v ≠ 3 → (waitingStore true false 40).fetches.get v = none)
      ∧ (∀ t ∈ [(0 : TileId), 1], ∀ h, (serving 90).fetches.get t = some h → h.due = 90) ∧ (serving 90).serving = some 1
      ∧ ((serving 89).fetches.get 0 = some ⟨1, 89, [(0, 300)]⟩ ∧ ∀ h, (serving 89).fetches.get 1 = some h → 89 < h.due)
      ∧ ((∀ t, (waitingStore false false 1).fetches.get t = none) ∧ (waitingStore false false 1).owed = false
          ∧ (waitingStore false false 1).budget < 2) := by
  refine ⟨by decide +kernel, by decide +kernel, by decide +kernel, by decide +kernel, ?_, rfl, ⟨by decide +kernel, ?_⟩, by decide +kernel⟩
  · rintro t ht h hh
    fin_cases ht <;> cases hh <;> rfl
  · rintro h hh
    cases hh
    decide

theorem witness_PacingCodeActs :
    (base .config).Takes 0 29 ∧ 4 ≤ 4 ∧ State.reset.phase = .starting ∧ (base .running).phase ≠ .starting
      ∧ (∃ t, exec (.powerOn ⟨7, .slave, .mib256, false⟩ ⟨Table.replicate 4 true, true, .driven true⟩) (base .running) = .next t)
      ∧ ((base .running).pins.rstAll = false ∧ ∃ t, exec .rstAllAssert (base .running) = .next t)
      ∧ (let s := { base .running with pins := { (base .running).pins with rstAll := true } };
          s.pins.rstAll = true ∧ ∃ t, exec (.rstAllRelease ⟨7, .slave, .mib256, false⟩) s = .next t)
      ∧ (∃ t, exec .rstKeepAssert (base .running) = .next t) ∧ (∃ t, exec .rstKeepRelease (base .running) = .next t)
      ∧ ∃ t, exec (.softReset 0) (base .running) = .next t := by
  refine ⟨by simp only [State.Takes]; decide +kernel, by decide, rfl, by decide, ⟨_, runs_next (by decide +kernel)⟩,
    ⟨rfl, _, runs_next (by decide +kernel)⟩, ⟨rfl, _, runs_next (by decide +kernel)⟩, ⟨_, runs_next (by decide +kernel)⟩,
    ⟨_, runs_next (by decide +kernel)⟩, ⟨_, runs_next (by decide +kernel)⟩⟩

/-- A fetch burst, of a fetch or of one that was cancelled, and the last page of a store of 128 MiB. -/
def fetching (stale : Bool) (runs : List (Nat × Nat)) : State :=
  { base .running with fsc := { Fsc.powerOn with
    fetches := Fsc.powerOn.fetches.set 3 (some ⟨1, 90, runs⟩)
    burst := some ⟨.fetch 3 stale, 134217472, 256, 60⟩ } }

theorem witness_BurstsEnd :
    (∀ stale, ∀ runs ∈ [[(134217472, 256)], [(134217472, 257)], [(134217472, 256), (0, 4)]],
        (fetching stale runs).phase ≠ .starting
          ∧ (fetching stale runs).fsc.burst = some ⟨.fetch 3 stale, 134217472, 256, 60⟩
          ∧ 134217472 + 256 ≤ storePages (fetching stale runs).clc.straps.store * 4096
          ∧ (fetching stale runs).fsc.fetches.get 3 = some ⟨1, 90, runs⟩)
      ∧ (uploading.phase ≠ .starting ∧ uploading.fsc.burst = some ⟨.load, 0, 4, 60⟩
          ∧ uploading.fsc.upload = some ⟨0, [1, 2, 3, 4], 0⟩ ∧ ([1, 2, 3, 4] : List Byte).length ≤ 4
          ∧ 0 + 4 ≤ storePages uploading.clc.straps.store * 4096
          ∧ uploading.clc.executing = some ⟨10, false, false, .upload 0 4⟩ ∧ uploading.surface 0 = .loading plainDesc 0
          ∧ Memory.wf uploading.store)
      ∧ (let s := { uploading with fsc := { uploading.fsc with upload := some ⟨0, List.replicate 257 1, 0⟩,
                                                               burst := some ⟨.load, 0, 256, 60⟩ } };
          s.fsc.upload = some ⟨0, List.replicate 257 1, 0⟩ ∧ 256 < (List.replicate 257 (1 : Byte)).length) := by
  refine ⟨by decide +kernel, ⟨by decide, rfl, rfl, by decide, by decide +kernel, rfl, by decide +kernel, by decide⟩, rfl,
    by rw [List.length_replicate]; decide⟩

/-- A running part whose tile 0 is sent a frame of this kind, next line `line` of 2, with or without a line formed. -/
def sending (kind : FrameKind) (line : Nat) (formed previous : Option (List Rgb)) : State :=
  { base .running with
    frames := (base .running).frames.set 0 { FrameRec.powerOn with kind := kind, panelW := 1, panelH := 2, nextLine := line }
    cmp := (base .running).cmp.set 0 ⟨formed, previous, 0⟩ }

theorem witness_LinesSent :
    ((base .running).phase ≠ .starting ∧ (base .starting).phase = .starting)
      ∧ (∀ k ∈ [FrameKind.hold, .idle, .none], ((sending k 0 none none).frames.get 0).kind = k)
      ∧ ((sending .flat 2 none none).frames.get 0).panelH ≤ ((sending .flat 2 none none).frames.get 0).nextLine
      ∧ (∀ k ∈ [FrameKind.flat, .black, .picture], ((sending k 1 none none).frames.get 0).kind = k
          ∧ ((sending k 1 none none).frames.get 0).nextLine < ((sending k 1 none none).frames.get 0).panelH)
      ∧ ((sending .picture 0 (some [⟨1, 2, 3⟩]) none).cmp.get 0).formed = some [⟨1, 2, 3⟩]
      ∧ (((sending .picture 1 none (some [⟨1, 2, 3⟩])).cmp.get 0).formed = none
          ∧ ((sending .picture 1 none (some [⟨1, 2, 3⟩])).cmp.get 0).previous = some [⟨1, 2, 3⟩]
          ∧ ((sending .picture 1 none (some [⟨1, 2, 3⟩])).frames.get 0).nextLine ≠ 0)
      ∧ (((sending .picture 0 none none).frames.get 0).nextLine + 1 < ((sending .picture 0 none none).frames.get 0).panelH
          ∧ lineRuns ((sending .picture 0 none none).frames.get 0) 1 = [])
      ∧ lineRuns { ((sending .picture 0 none none).frames.get 0) with entries := [plainEntry 256] } 1 ≠ [] := by
  decide +kernel

/-- A part whose blackout input and latch are in this mode. -/
def blackedOut (mode : BlackoutMode) (input latch : Bool) : State :=
  { base .config with cbi := { (base .config).cbi with mode := mode, input := input, latch := latch } }

theorem witness_BlackoutCommands :
    (base .config).Takes 0 27 ∧ (base .running).Takes 15 28 ∧ 2 < 3
      ∧ (∃ (m : Table Nat 4) (c : CueId), (some (Table.replicate 4 2) : Option (Table Nat 4)) = some m ∧ 1 < m.get c)
      ∧ ((2, BlackoutMode.latch) ∈ [(0, BlackoutMode.off), (1, .level), (2, .latch)]
          ∧ ∀ (n : Table Nat 4) (c : CueId), (some (Table.replicate 4 1) : Option (Table Nat 4)) = some n → n.get c ≤ 1)
      ∧ (blackedOut .latch false false).cbi.latch = false
      ∧ ((blackedOut .latch true true).cbi.latch = true ∧ (blackedOut .latch true true).cbi.input = true)
      ∧ ((blackedOut .latch false true).cbi.latch = true ∧ (blackedOut .latch false true).cbi.input = false) := by
  simp only [State.Takes]
  refine ⟨by decide +kernel, by decide +kernel, by decide, ⟨_, 0, rfl, by decide⟩, ⟨by decide, fun n c h => ?_⟩, rfl, ⟨rfl, rfl⟩,
    ⟨rfl, rfl⟩⟩
  cases h
  rw [Table.get_replicate]

theorem witness_BlackoutInputTaken :
    1999 < 2000 ∧ false = (blackedOut .latch false false).cbi.input
      ∧ (2000 ≤ 2000 ∧ true ≠ (blackedOut .latch false false).cbi.input) := by
  decide

/-! ### Witnesses: a state in CONFIG meets every invariant, and its step answers a next state -/

theorem base_groups_idle (p : Phase) (g : GroupId) : (base p).groupState g = .idle := by
  show ((Table.replicate 8 GroupRec.powerOn).get g).state = .idle
  rw [Table.get_replicate]
  rfl

theorem base_groupsInv (p : Phase) : (base p).GroupsInv :=
  ⟨only_first_holds fun g _ => base_groups_idle p g,
    fun _ => master_groups _ rfl (fun g _ => base_groups_idle p g) (.inl ⟨.inl (base_groups_idle p 0), rfl, rfl⟩),
    fun h => nomatch (h : Role.master = Role.slave)⟩

theorem base_empty (p : Phase) (i : SurfaceId) : (base p).surface i = .empty := by
  show ((Table.replicate 256 (⟨.empty, 0⟩ : SurfaceRec)).get i).state = .empty
  rw [Table.get_replicate]

theorem witness_StepsRun : step (base .config) = .next { base .config with now := 1 } := rfl

theorem witness_ReferencesKept : (base .config).RefsInv := base_refsInv _

theorem witness_StoreAndPagesKept : (base .config).PagesInv ∧ (base .config).MemoryInv := by
  refine ⟨⟨fun i j a b _ ha => ?_, fun i d hd => ?_⟩, by decide, fun c hc => ?_⟩
  · rw [base_empty] at ha
    cases ha
  · rw [base_empty] at hd
    cases hd
  · cases hc

theorem base_transfersInv (p : Phase) : (base p).TransfersInv := by
  have empty := base_empty p
  refine ⟨base_refsInv p, ⟨fun i j a b _ ha => ?_, fun i d hd => ?_⟩, ⟨fun u h => ?_, fun b h => ?_, fun e i taken d l h => ?_,
    fun i d l h => ?_⟩, fun b h => ?_, fun t g h => ?_, fun i v h => ?_, fun t e h => ?_⟩
  · rw [empty] at ha
    cases ha
  · rw [empty] at hd
    cases hd
  · cases h
  · cases h
  · cases h
  · rw [empty] at h
    cases h
  · cases h
  · have none' : (base p).fsc.fetches.get t = none := Table.get_replicate _ _
    rw [none'] at h
    cases h
  · have free : (base p).ptab.get i = .free := Table.get_replicate _ _
    rw [free] at h
    cases h
  · have none' : (base p).frames.get t = FrameRec.powerOn := Table.get_replicate _ _
    rw [none'] at h
    cases h

theorem witness_TransfersInv : (base .config).TransfersInv := base_transfersInv _

/-- The states in which a step re-tests RDY: a START that executes, a fade that is over, an upload's last burst. -/
theorem witness_RetestedAs :
    (let s := { base .config with clc := { (base .config).clc with executing := some ⟨6, false, false, .start⟩ } };
        s.GroupsInv ∧ s.clc.executing = some ⟨6, false, false, .start⟩)
      ∧ (let s := atTen (withRecord (.fading 0 (shown 2 none) 1 1 8) (base .running));
        s.GroupsInv ∧ s.csu.sync = .locked ∧ s.ptab.get 0 = .fading 0 (shown 2 none) 1 1 8 ∧ s.cvb.prep = .none)
      ∧ uploading.GroupsInv ∧ 0 + 4 ≠ plainDesc.totalBytes ∧ (0 + 1024 = plainDesc.totalBytes) :=
  ⟨⟨base_groupsInv .config, rfl⟩, ⟨base_groupsInv .running, rfl, by decide +kernel, rfl⟩, base_groupsInv .config, by decide, by decide⟩

theorem witness_GroupsKept : (base .config).GroupsInv ∧ (heard (.nominated 7)).GroupsInv :=
  ⟨base_groupsInv _, heard_nominated_inv 7⟩

theorem witness_CoverageListsKept : (base .config).ListsInv := by
  have active : ∀ t, (base .config).cvb.active.get t = ⟨[], 0⟩ := fun t => Table.get_replicate _ _
  have shadow : ∀ t, (base .config).cvb.shadow.get t = none := fun t => Table.get_replicate _ _
  refine ⟨base_groupsInv _, fun t => ?_, fun t c h => ?_, fun t _ => ⟨active t, shadow t⟩, fun _ => shadow, fun g h => ?_,
    fun t => ?_, fun g t c h => ?_⟩
  · rw [active]
    exact ⟨by decide, .nil⟩
  · rw [shadow] at h
    cases h
  · cases h
  · rw [active]
    exact ⟨fun i h => (nomatch h), List.Pairwise.nil⟩
  · cases h

theorem witness_ReadinessKept : (base .config).RdyInv := ⟨base_refsInv _, base_groupsInv _, fun h => by cases h⟩

theorem witness_PortRangesKept : (base .config).PortsInv := by
  refine ⟨by decide +kernel, fun t a n h => ?_, by decide +kernel, by decide +kernel, by decide +kernel, by decide +kernel,
    fun t _ _ => congrArg FrameRec.kind (Table.get_replicate FrameRec.powerOn t)⟩
  have off : ((base .config).ports.get t).state = .off := congrArg Port.state (Table.get_replicate Port.powerOn t)
  rw [off] at h
  cases h

end Sys2Proof.Tests
end

/-! SUPPORT. DEFINE_SURFACE and DROP_SURFACE (R23, R30): what each test of theirs reads, what each command answers at the test that
decides, and the statement SurfacesDefinedAndDropped. -/

namespace Sys2Proof.Machine

/-! ### An immediate answer -/

/-- A taken command that answers at once leaves what its own effect leaves, with the answer in the link (R179 to R181). -/
theorem State.hostCommand_replied {s t : State} {unit : Nat} {c : HostCmd} {op : CommandOp} {status : Status} {p : Payload}
    (h : s.Takes unit c.code) (hl : c.payload.length ≤ 4101)
    (hop : op (s.takeFrame (encodeFrame unit c)) = (t.takeFrame (encodeFrame unit c)).answer status p) :
    s.hostCommand unit c op = t.replied unit c status p :=
  State.hostCommand_done h hl hop rfl

/-- A taken DEFINE_SURFACE answers as its own tests say. -/
theorem exec_defineSurface_replied {s t : State} {unit id f w h c base : Nat} {key : Option Nat} {status : Status}
    {p : Payload} (ht : s.Takes unit 9)
    (hop : ∀ bytes, opDefineSurface id f w h c base key (s.takeFrame bytes) = (t.takeFrame bytes).answer status p) :
    exec (.defineSurface unit id f w h c base key) s
      = .next (t.replied unit (.defineSurface id f w h c base key) status p) := by
  have hl : (HostCmd.defineSurface id f w h c base key).payload.length ≤ 4101 := by
    cases key <;> simp [HostCmd.payload, leBytes]
  exact congrArg Host.Outcome.next (State.hostCommand_replied ht hl (hop _))

/-- A taken DROP_SURFACE answers as its own tests say. -/
theorem exec_dropSurface_replied {s t : State} {unit id : Nat} {status : Status} {p : Payload} (ht : s.Takes unit 11)
    (hop : ∀ bytes, opDropSurface id (s.takeFrame bytes) = (t.takeFrame bytes).answer status p) :
    exec (.dropSurface unit id) s = .next (t.replied unit (.dropSurface id) status p) := by
  have hl : (HostCmd.dropSurface id).payload.length ≤ 4101 := by simp [HostCmd.payload, leBytes]
  exact congrArg Host.Outcome.next (State.hostCommand_replied ht hl (hop _))

/-! ### The fields of DEFINE_SURFACE -/

theorem recordId_val {n : Nat} (i : Fin n) : recordId i.val n = some i := dif_pos i.isLt

theorem recordId_eq_none {n count : Nat} (h : count ≤ n) : recordId n count = none := dif_neg (by omega)

theorem Format.bytes_ite (f : Nat) : (if f = 0 then Format.full else .half).bytes = if f = 0 then 4 else 2 := by
  split <;> rfl

/-- The ranges of width, height and cells, and the cells' even division of the height (R23, test 3). -/
theorem sizeInRange_iff {w h c : Nat} :
    (within 1 4096 w && within 1 4096 h && within 1 64 c && decide (h % c = 0)) = true
      ↔ 1 ≤ w ∧ w ≤ 4096 ∧ 1 ≤ h ∧ h ≤ 4096 ∧ 1 ≤ c ∧ c ≤ 64 ∧ h % c = 0 := by
  simp [within, and_assoc]

/-- A description is formed of fields that pass test 3 of R23. -/
theorem Desc.ofFields_eq_some {f w h c : Nat} {key : Option Nat} (base : Nat) (hpass : ¬ surfaceFieldsFail f w h c key) :
    Desc.ofFields f w h c base key = some ⟨if f = 0 then .full else .half, w, h, c, base, keyNamed f key⟩ := by
  have hsize := (sizeInRange_iff (w := w) (h := h) (c := c)).2 (by unfold surfaceFieldsFail at hpass; omega)
  match f, key with
  | 0, none => simp only [Desc.ofFields, Format.ofCode, hsize]; rfl
  | 1, none => simp only [Desc.ofFields, Format.ofCode, hsize]; rfl
  | 0, some n =>
    have hn : n ≤ 16777215 := by simp [surfaceFieldsFail] at hpass; omega
    simp only [Desc.ofFields, Format.ofCode, hsize, Key.ofNumber, if_pos hn]; rfl
  | 1, some n =>
    have hn : n ≤ 65535 := by simp [surfaceFieldsFail] at hpass; omega
    simp only [Desc.ofFields, Format.ofCode, hsize, Key.ofNumber, if_pos hn]; rfl
  | f + 2, _ => exact absurd (.inl (by omega)) hpass

/-- No description is formed of fields that fail test 3 of R23. -/
theorem Desc.ofFields_eq_none {f w h c : Nat} {key : Option Nat} (base : Nat) (hfail : surfaceFieldsFail f w h c key) :
    Desc.ofFields f w h c base key = none := by
  by_cases hsize : (within 1 4096 w && within 1 4096 h && within 1 64 c && decide (h % c = 0)) = true
  · have hr := sizeInRange_iff.1 hsize
    match f, key with
    | 0, none => simp [surfaceFieldsFail] at hfail; omega
    | 1, none => simp [surfaceFieldsFail] at hfail; omega
    | 0, some n =>
      have hn : ¬ n ≤ 16777215 := by simp [surfaceFieldsFail] at hfail; omega
      simp only [Desc.ofFields, Format.ofCode, hsize, Key.ofNumber, if_neg hn]; rfl
    | 1, some n =>
      have hn : ¬ n ≤ 65535 := by simp [surfaceFieldsFail] at hfail; omega
      simp only [Desc.ofFields, Format.ofCode, hsize, Key.ofNumber, if_neg hn]; rfl
    | f + 2, _ => rfl
  · unfold Desc.ofFields
    split
    · rfl
    · exact if_neg hsize

/-! ### The record and the other records -/

/-- The references of a record that is LOADING or READY are the count that test 2 of R23 reads. -/
theorem SurfaceRec.named_of_ne_empty {r : SurfaceRec} (h : r.state ≠ .empty) : r.named = r.refs := by
  obtain ⟨state, refs⟩ := r
  cases state with
  | empty => exact absurd rfl h
  | loading d loaded => rfl
  | ready d => rfl

/-- Test 2 of R23 fails where the record is LOADING or READY and a slot names it. -/
theorem SurfaceRec.named_pos_iff {r : SurfaceRec} : 0 < r.named ↔ r.state ≠ .empty ∧ 0 < r.refs := by
  by_cases h : r.state = .empty
  · simp [SurfaceRec.named, h]
  · simp [SurfaceRec.named_of_ne_empty h, h]

theorem sharesWith_iff {i j : SurfaceId} {d : Desc} {r : SurfaceRec} :
    sharesWith i d (j, r) = true ↔ j ≠ i ∧ ∃ x, r.state.desc = some x ∧ d.Overlaps x := by
  cases hx : r.state.desc <;> simp [sharesWith, sharePages, Desc.Overlaps, hx]

/-- Test 5 of R23 goes through the ids in ascending order. -/
theorem State.overlapping_eq (s : State) (i : SurfaceId) (d : Desc) :
    s.overlapping i d = (List.finRange 256).find? fun k => sharesWith i d (k, s.sdir.get k) := by
  simp [State.overlapping, Table.entries_eq, List.find?_map, Function.comp_def]

/-- Test 5 of R23 passes where no other record's pages are shared. -/
theorem State.overlapping_eq_none {s : State} {i : SurfaceId} {d : Desc}
    (h : ∀ k x, k ≠ i → (s.surface k).desc = some x → ¬ d.Overlaps x) : s.overlapping i d = none := by
  rw [State.overlapping_eq, List.find?_eq_none]
  intro k _ hk
  obtain ⟨hki, x, hx, ho⟩ := sharesWith_iff.1 hk
  exact h k x hki hx ho

/-- Test 5 of R23 names the lowest id whose pages are shared. -/
theorem State.overlapping_eq_some {s : State} {i j : SurfaceId} {d e : Desc} (hji : j ≠ i)
    (he : (s.surface j).desc = some e) (ho : d.Overlaps e)
    (hleast : ∀ k x, k.val < j.val → k ≠ i → (s.surface k).desc = some x → ¬ d.Overlaps x) :
    s.overlapping i d = some j := by
  rw [State.overlapping_eq, List.find?_eq_some_iff_getElem]
  refine ⟨sharesWith_iff.2 ⟨hji, e, he, ho⟩, j.val, by simp, by simp, fun k hk => ?_⟩
  rw [Bool.not_eq_true', Bool.eq_false_iff]
  intro hs
  obtain ⟨hki, x, hx, hox⟩ := sharesWith_iff.1 hs
  exact hleast _ x (by simpa using hk) hki hx hox

/-! ### DEFINE_SURFACE's own tests, in order (R23) -/

section
variable {s : State} {i : SurfaceId} {id f w h c base : Nat} {key : Option Nat} {d : Desc}

theorem opDefineSurface_noRecord (hid : 256 ≤ id) :
    opDefineSurface id f w h c base key s = s.answer .badValue .empty := by
  simp [opDefineSurface, recordId_eq_none hid]

theorem opDefineSurface_inUse (hne : s.surface i ≠ .empty) (href : 0 < (s.sdir.get i).refs) :
    opDefineSurface i.val f w h c base key s = s.answer .inUse (.references (s.sdir.get i).refs) := by
  have hnamed : (s.sdir.get i).named = (s.sdir.get i).refs := SurfaceRec.named_of_ne_empty hne
  simp [opDefineSurface, recordId_val, hnamed, href]

theorem opDefineSurface_fieldsFail (hfree : ¬ 0 < (s.sdir.get i).named)
    (hd : Desc.ofFields f w h c base key = none) :
    opDefineSurface i.val f w h c base key s = s.answer .badValue .empty := by
  simp only [opDefineSurface, recordId_val, if_neg hfree, hd]

theorem opDefineSurface_outside (hfree : ¬ 0 < (s.sdir.get i).named)
    (hd : Desc.ofFields f w h c base key = some d) (hfit : ¬ s.fitsStore d = true) :
    opDefineSurface i.val f w h c base key s = s.answer .badValue .empty := by
  simp only [opDefineSurface, recordId_val, if_neg hfree, hd, if_neg hfit]

theorem opDefineSurface_overlap {j : SurfaceId} (hfree : ¬ 0 < (s.sdir.get i).named)
    (hd : Desc.ofFields f w h c base key = some d) (hfit : s.fitsStore d = true) (ho : s.overlapping i d = some j) :
    opDefineSurface i.val f w h c base key s = s.answer .overlap (.overlapping j) := by
  simp only [opDefineSurface, recordId_val, if_neg hfree, hd, if_pos hfit, ho]

theorem opDefineSurface_done (hfree : ¬ 0 < (s.sdir.get i).named)
    (hd : Desc.ofFields f w h c base key = some d) (hfit : s.fitsStore d = true) (ho : s.overlapping i d = none) :
    opDefineSurface i.val f w h c base key s
      = (s.setSurface i (.loading d 0)).answer .ok (.defined d.pageCount d.totalBytes) := by
  simp only [opDefineSurface, recordId_val, if_neg hfree, hd, if_pos hfit, ho]

/-! ### DROP_SURFACE's own tests, in order (R30) -/

theorem opDropSurface_noRecord (hid : 256 ≤ id) : opDropSurface id s = s.answer .badValue .empty := by
  simp [opDropSurface, recordId_eq_none hid]

theorem opDropSurface_empty (he : s.surface i = .empty) : opDropSurface i.val s = s.answer .noSuch .empty := by
  simp [opDropSurface, recordId_val, he]

theorem opDropSurface_inUse (hne : s.surface i ≠ .empty) (href : 0 < (s.sdir.get i).refs) :
    opDropSurface i.val s = s.answer .inUse (.references (s.sdir.get i).refs) := by
  simp [opDropSurface, recordId_val, hne, href]

theorem opDropSurface_done (hne : s.surface i ≠ .empty) (href : (s.sdir.get i).refs = 0) :
    opDropSurface i.val s = ({ s with sdir := s.sdir.set i ⟨.empty, 0⟩ } : State).answer .ok .empty := by
  simp [opDropSurface, recordId_val, hne, href, State.setSurface, Table.modify]

end

/-! ### The statement -/

/-- Settles O19: the link lets each command through to its own tests, and each clause is the test of R23 or R30 that decides. -/
theorem surfacesDefinedAndDropped : Obligations.SurfacesDefinedAndDropped := by
  unfold Obligations.SurfacesDefinedAndDropped
  refine ⟨⟨fun s unit id f w h c base key ht hid => exec_defineSurface_replied ht fun _ => opDefineSurface_noRecord hid,
      fun s unit i f w h c base key ht => ?_⟩,
    fun s unit id ht hid => exec_dropSurface_replied ht fun _ => opDropSurface_noRecord hid, fun s unit i ht => ⟨?_, ?_, ?_⟩⟩
  · intro cmd d total inUse outside
    have htotal : d.totalBytes = total := by simp only [Desc.totalBytes, d, total, Format.bytes_ite]
    have hpages : d.pageCount = (total + 4095) / 4096 := by simp only [Desc.pageCount, htotal, pageBytes]
    have hfits : s.fitsStore d = true ↔ ¬ outside := by
      simp only [State.fitsStore, decide_eq_true_eq, hpages, outside, Nat.not_lt, d]
    have hnamed : ¬ inUse → ¬ 0 < (s.sdir.get i).named := mt SurfaceRec.named_pos_iff.1
    refine ⟨fun ⟨hne, href⟩ => ?_, fun hfree hbad => ?_, fun hfree hpass hin j e hji he ho hleast => ?_,
      fun hfree hpass hin hclear => ?_⟩
    · exact exec_defineSurface_replied ht fun _ => opDefineSurface_inUse hne href
    · by_cases hfail : surfaceFieldsFail f w h c key
      · exact exec_defineSurface_replied ht fun _ =>
          opDefineSurface_fieldsFail (hnamed hfree) (Desc.ofFields_eq_none base hfail)
      · have hout : outside := hbad.resolve_left hfail
        exact exec_defineSurface_replied ht fun _ =>
          opDefineSurface_outside (hnamed hfree) (Desc.ofFields_eq_some base hfail) (mt hfits.1 (not_not_intro hout))
    · exact exec_defineSurface_replied ht fun _ => opDefineSurface_overlap (hnamed hfree)
        (Desc.ofFields_eq_some base hpass) (hfits.2 hin) (State.overlapping_eq_some hji he ho hleast)
    · rw [← hpages, ← htotal]
      exact exec_defineSurface_replied ht fun _ => opDefineSurface_done (hnamed hfree)
        (Desc.ofFields_eq_some base hpass) (hfits.2 hin) (State.overlapping_eq_none hclear)
  · exact fun he => exec_dropSurface_replied ht fun _ => opDropSurface_empty he
  · exact fun hne href => exec_dropSurface_replied ht fun _ => opDropSurface_inUse hne href
  · exact fun hne href => exec_dropSurface_replied ht fun _ => opDropSurface_done hne href

end Sys2Proof.Machine

/-! SUPPORT. WITHDRAW (R50): the tests it shares with RETIRE (R49), what it does to each state of the record, and the statement
PlacementWithdrawn. -/

namespace Sys2Proof.Machine

/-! ### A command to one record -/

/-- A taken WITHDRAW answers as its own tests say. -/
theorem exec_withdraw_replied {s t : State} {unit id : Nat} {status : Status} {p : Payload} (ht : s.Takes unit 15)
    (hop : ∀ bytes, opWithdraw id (s.takeFrame bytes) = (t.takeFrame bytes).answer status p) :
    exec (.withdraw unit id) s = .next (t.replied unit (.withdraw id) status p) := by
  have hl : (HostCmd.withdraw id).payload.length ≤ 4101 := by simp [HostCmd.payload, leBytes]
  exact congrArg Host.Outcome.next (State.hostCommand_replied ht hl (hop _))

/-- A taken RETIRE answers as its own tests say. -/
theorem exec_retire_replied {s t : State} {unit id : Nat} {status : Status} {p : Payload} (ht : s.Takes unit 14)
    (hop : ∀ bytes, opRetire id (s.takeFrame bytes) = (t.takeFrame bytes).answer status p) :
    exec (.retire unit id) s = .next (t.replied unit (.retire id) status p) := by
  have hl : (HostCmd.retire id).payload.length ≤ 4101 := by simp [HostCmd.payload, leBytes]
  exact congrArg Host.Outcome.next (State.hostCommand_replied ht hl (hop _))

/-- No phase and no unit byte tells RETIRE and WITHDRAW apart (R177, R178, R182). -/
theorem State.Takes.retire_of_withdraw {s : State} {unit : Nat} (h : s.Takes unit 15) : s.Takes unit 14 := by
  simpa [State.Takes] using h

/-- Two commands that the same effect and answer follow differ in the link alone, and give the same status. -/
theorem State.replied_agree (t : State) (unit : Nat) (c d : HostCmd) (status : Status) (p q : Payload) :
    t.replied unit c status p = { t.replied unit d status q with clc := (t.replied unit c status p).clc }
      ∧ (t.replied unit c status p).clc.response.map Response.status
        = (t.replied unit d status q).clc.response.map Response.status := by
  refine ⟨rfl, ?_⟩
  by_cases hu : unit = 15 <;> simp [State.replied, State.answered, hu]

/-! ### The tests of R49 -/

/-- The groups whose records are locked are those NOMINATED or IN_DOUBT (R44). -/
theorem State.locks_iff {s : State} {g : GroupId} : s.locks g = true ↔ (s.groupState g).Locks := by
  unfold State.locks GroupState.Locks
  cases s.groupState g <;> simp [GroupState.holdsRecords, GroupState.isNominated, GroupState.isInDoubt]

/-- What RETIRE and WITHDRAW make of a STAGED record: it is FREE and its surface is named once less (R49, R50). -/
def State.freeStaged (i : PlacementId) (v : Values) (s : State) : State :=
  { s with ptab := s.ptab.set i .free, sdir := s.sdir.modify v.surface fun r => { r with refs := r.refs - 1 } }

section
variable {s : State} {i : PlacementId} {g : GroupId} {act : PlacementId → CommandOp}

theorem onUnlockedRecord_noRecord {id : Nat} (hid : 128 ≤ id) : onUnlockedRecord id act s = s.answer .badValue .empty := by
  simp only [onUnlockedRecord, recordId_eq_none hid]

theorem onUnlockedRecord_free (hr : s.ptab.get i = .free) : onUnlockedRecord i.val act s = s.answer .noSuch .empty := by
  simp only [onUnlockedRecord, recordId_val, hr, Placement.group]

theorem onUnlockedRecord_locked (hg : (s.ptab.get i).group = some g) (hlock : (s.groupState g).Locks) :
    onUnlockedRecord i.val act s = s.answer .groupLocked .empty := by
  simp only [onUnlockedRecord, recordId_val, hg, if_pos (State.locks_iff.2 hlock)]

theorem onUnlockedRecord_passed (hg : (s.ptab.get i).group = some g) (hlock : ¬ (s.groupState g).Locks) :
    onUnlockedRecord i.val act s = act i s := by
  simp only [onUnlockedRecord, recordId_val, hg, if_neg (mt State.locks_iff.1 hlock)]

/-! ### The effect past the tests, by the state of the record (R49, R50) -/

variable {v : Values} {a b : Frame}

theorem State.withdrawRecord_staged (hr : s.ptab.get i = .staged g v) :
    s.withdrawRecord i = (s.freeStaged i v).answer .ok .empty := by
  simp only [State.withdrawRecord, hr]; rfl

theorem State.retireRecord_staged (hr : s.ptab.get i = .staged g v) :
    s.retireRecord i = (s.freeStaged i v).answer .ok .empty := by
  simp only [State.retireRecord, hr]; rfl

theorem State.withdrawRecord_replace {new : Values} {restart : Bool}
    (hr : s.ptab.get i = .live g v a b (some (.replace new restart))) :
    s.withdrawRecord i = State.answer
      { s with
        ptab := s.ptab.set i (.live g v a b none)
        sdir := s.sdir.modify new.surface fun r => { r with refs := r.refs - 1 } } .ok (.withdrawn .replace) := by
  simp only [State.withdrawRecord, hr]; rfl

theorem State.withdrawRecord_retire (hr : s.ptab.get i = .live g v a b (some .retire)) :
    s.withdrawRecord i
      = State.answer { s with ptab := s.ptab.set i (.live g v a b none) } .ok (.withdrawn .retire) := by
  simp only [State.withdrawRecord, hr]; rfl

theorem State.withdrawRecord_live (hr : s.ptab.get i = .live g v a b none) :
    s.withdrawRecord i = s.answer .nothingPending .empty := by
  simp only [State.withdrawRecord, hr]

theorem State.withdrawRecord_fading {start : Frame} (hr : s.ptab.get i = .fading g v a b start) :
    s.withdrawRecord i = s.answer .nothingPending .empty := by
  simp only [State.withdrawRecord, hr]

/-! ### WITHDRAW and RETIRE of one record -/

/-- WITHDRAW's answer on a record past the tests is that of its effect. -/
theorem exec_withdraw_passed {t : State} {unit : Nat} {status : Status} {p : Payload} (ht : s.Takes unit 15)
    (hg : (s.ptab.get i).group = some g) (hlock : ¬ (s.groupState g).Locks)
    (hact : ∀ bytes, (s.takeFrame bytes).withdrawRecord i = (t.takeFrame bytes).answer status p) :
    exec (.withdraw unit i.val) s = .next (t.replied unit (.withdraw i.val) status p) :=
  exec_withdraw_replied ht fun bytes =>
    (onUnlockedRecord_passed (s := s.takeFrame bytes) hg hlock).trans (hact bytes)

/-- On a STAGED record the two commands have one effect and one answer, with the group's lock or without. -/
theorem exec_withdraw_retire_staged {unit : Nat} (ht : s.Takes unit 15) (hr : s.ptab.get i = .staged g v) :
    ∃ t status, exec (.withdraw unit i.val) s = .next (State.replied t unit (.withdraw i.val) status .empty)
      ∧ exec (.retire unit i.val) s = .next (State.replied t unit (.retire i.val) status .empty) := by
  have hg : (s.ptab.get i).group = some g := congrArg Placement.group hr
  by_cases hlock : (s.groupState g).Locks
  · exact ⟨s, .groupLocked, exec_withdraw_replied ht fun _ => onUnlockedRecord_locked hg hlock,
      exec_retire_replied ht.retire_of_withdraw fun _ => onUnlockedRecord_locked hg hlock⟩
  · exact ⟨s.freeStaged i v, .ok, exec_withdraw_passed ht hg hlock fun _ => State.withdrawRecord_staged hr,
      exec_retire_replied ht.retire_of_withdraw fun bytes =>
        (onUnlockedRecord_passed (s := s.takeFrame bytes) hg hlock).trans (State.retireRecord_staged hr)⟩

end

/-! ### The statement -/

/-- Settles O26: the three shared tests decide first, and past them each clause is the effect on one state of the record. -/
theorem placementWithdrawn : Obligations.PlacementWithdrawn := by
  unfold Obligations.PlacementWithdrawn
  refine ⟨fun s unit id ht hid => exec_withdraw_replied ht fun _ => onUnlockedRecord_noRecord hid,
    fun s unit i ht hr => exec_withdraw_replied ht fun _ => onUnlockedRecord_free hr,
    fun s unit i g ht hg hlock => exec_withdraw_replied ht fun _ => onUnlockedRecord_locked hg hlock,
    fun s unit i g v ht hlock => ⟨fun hr => ?staged, fun a b new restart hr => ?replace, fun a b hr => ?retire,
      fun a b start hr => ?unchanged⟩,
    fun s unit i g v ht hr => ?sameAsRetire⟩
  case staged =>
    exact exec_withdraw_passed ht (congrArg Placement.group hr) hlock fun _ => State.withdrawRecord_staged hr
  case replace =>
    exact exec_withdraw_passed ht (congrArg Placement.group hr) hlock fun _ => State.withdrawRecord_replace hr
  case retire =>
    exact exec_withdraw_passed ht (congrArg Placement.group hr) hlock fun _ => State.withdrawRecord_retire hr
  case unchanged =>
    rcases hr with hr | hr
    · exact exec_withdraw_passed ht (congrArg Placement.group hr) hlock fun _ => State.withdrawRecord_live hr
    · exact exec_withdraw_passed ht (congrArg Placement.group hr) hlock fun _ => State.withdrawRecord_fading hr
  case sameAsRetire =>
    obtain ⟨t, status, hw, hret⟩ := exec_withdraw_retire_staged ht hr
    exact ⟨_, _, hw, hret, t.replied_agree unit (.withdraw i.val) (.retire i.val) status .empty .empty⟩

end Sys2Proof.Machine

/-! SUPPORT. SET_GROUP (R66): which fields form a trigger, what the command answers at each of its tests, and the statement GroupSet. -/

namespace Sys2Proof.Machine

/-! ### A frame in STARTING -/

/-- A part in STARTING drops a frame whole, whatever the frame carries (R177). -/
theorem State.hostCommand_starting {s : State} (h : s.phase = .starting) (unit : Nat) (c : HostCmd) (op : CommandOp) :
    s.hostCommand unit c op = s := if_pos h

/-! ### The trigger that the fields give -/

/-- An edge code in range is the edge of the field table (10, section 10.6). -/
theorem Edge.ofCode_of_le {edge : Nat} (h : edge ≤ 3) :
    ∃ e, Edge.ofCode edge = some e ∧ (edge, e) ∈ [(0, Edge.rising), (1, .falling), (2, .any), (3, .level)] := by
  match edge, h with
  | 0, _ => exact ⟨.rising, rfl, by simp⟩
  | 1, _ => exact ⟨.falling, rfl, by simp⟩
  | 2, _ => exact ⟨.any, rfl, by simp⟩
  | 3, _ => exact ⟨.level, rfl, by simp⟩

theorem Edge.ofCode_eq_none {edge : Nat} (h : 3 < edge) : Edge.ofCode edge = none := by
  match edge, h with
  | n + 4, _ => rfl

/-- A CUE trigger is formed of a cue and an edge that are both in range. -/
theorem Trigger.ofFields_cue {edge : Nat} {e : Edge} (c : CueId) (he : Edge.ofCode edge = some e) (target : Nat) :
    Trigger.ofFields 1 c.val edge target = some (.cue c e) := by
  simp only [Trigger.ofFields, recordId_val, he]

/-- No trigger is formed of a kind out of range, nor of a CUE whose cue or edge is out of range (R66, test 3). -/
theorem Trigger.ofFields_eq_none {kind cue edge : Nat} (h : 2 < kind ∨ (kind = 1 ∧ (3 < cue ∨ 3 < edge))) (target : Nat) :
    Trigger.ofFields kind cue edge target = none := by
  rcases h with hkind | ⟨rfl, hcue | hedge⟩
  · match kind, hkind with
    | n + 3, _ => rfl
  · simp only [Trigger.ofFields, recordId_eq_none (Nat.succ_le_of_lt hcue)]
  · simp only [Trigger.ofFields, Edge.ofCode_eq_none hedge]
    cases recordId cue 4 <;> rfl

/-- Fields that pass test 3 of R66 give the trigger of their kind, with the fields of that kind. -/
theorem Trigger.ofFields_eq_some {kind cue edge : Nat} (h : ¬ (2 < kind ∨ (kind = 1 ∧ (3 < cue ∨ 3 < edge))))
    (target : Nat) : ∃ trigger, Trigger.ofFields kind cue edge target = some trigger
      ∧ (kind = 0 → trigger = .immediate)
      ∧ (kind = 1 → ∃ (c : CueId) (e : Edge), trigger = .cue c e ∧ c.val = cue
          ∧ (edge, e) ∈ [(0, Edge.rising), (1, .falling), (2, .any), (3, .level)])
      ∧ (kind = 2 → trigger = .frame (BitVec.ofNat 32 target)) := by
  match kind with
  | 0 => exact ⟨.immediate, rfl, by simp⟩
  | 1 =>
    have hcue : cue < 4 := by omega
    obtain ⟨e, he, hmem⟩ := Edge.ofCode_of_le (edge := edge) (by omega)
    exact ⟨.cue ⟨cue, hcue⟩ e, Trigger.ofFields_cue ⟨cue, hcue⟩ he target, by simp,
      fun _ => ⟨⟨cue, hcue⟩, e, rfl, rfl, hmem⟩, by simp⟩
  | 2 => exact ⟨.frame (BitVec.ofNat 32 target), rfl, by simp⟩
  | n + 3 => exact absurd (.inl (by omega)) h

/-! ### SET_GROUP's own tests, in order (R66) -/

/-- A taken SET_GROUP answers as its own tests say. -/
theorem exec_setGroup_replied {s t : State} {unit group kind cue edge target timeout : Nat} {status : Status} {p : Payload}
    (ht : s.Takes unit 18)
    (hop : ∀ bytes, opSetGroup group kind cue edge target timeout (s.takeFrame bytes)
      = (t.takeFrame bytes).answer status p) :
    exec (.setGroup unit group kind cue edge target timeout) s
      = .next (t.replied unit (.setGroup group kind cue edge target timeout) status p) := by
  have hl : (HostCmd.setGroup group kind cue edge target timeout).payload.length ≤ 4101 := by
    simp [HostCmd.payload, leBytes]
  exact congrArg Host.Outcome.next (State.hostCommand_replied ht hl (hop _))

/-- What a SET_GROUP that passes writes (R66): the trigger and the commit timeout, of which 0 is stored as 1. -/
def State.withTrigger (g : GroupId) (trigger : Trigger) (timeout : Nat) (s : State) : State :=
  { s with groups := s.groups.set g { s.groups.get g with trigger := trigger, commitTimeout := max timeout 1 } }

section
variable {s : State} {g : GroupId} {group kind cue edge target timeout : Nat}

theorem opSetGroup_noRecord (hgroup : 8 ≤ group) :
    opSetGroup group kind cue edge target timeout s = s.answer .badValue .empty := by
  simp only [opSetGroup, recordId_eq_none hgroup]

theorem opSetGroup_busy (hbusy : s.groupState g ≠ .idle) :
    opSetGroup g.val kind cue edge target timeout s = s.answer .groupBusy (.groupState (s.groupState g).name) := by
  simp only [opSetGroup, recordId_val, if_pos hbusy]

/-- Test 3 of R66, in its two readings: the timeout is out of range, or the fields form no trigger. -/
theorem opSetGroup_misfit (hidle : s.groupState g = .idle)
    (hmisfit : 2 < kind ∨ (kind = 1 ∧ (3 < cue ∨ 3 < edge)) ∨ 255 < timeout) :
    opSetGroup g.val kind cue edge target timeout s = s.answer .badValue .empty := by
  have hpass : ¬ s.groupState g ≠ .idle := not_not_intro hidle
  by_cases htimeout : 255 < timeout
  · have hrange : within 0 255 timeout = false := by simp [within, htimeout]
    simp only [opSetGroup, recordId_val, if_neg hpass, hrange]
    cases Trigger.ofFields kind cue edge target <;> rfl
  · have hfields : 2 < kind ∨ (kind = 1 ∧ (3 < cue ∨ 3 < edge)) := by omega
    simp only [opSetGroup, recordId_val, if_neg hpass, Trigger.ofFields_eq_none hfields]

theorem commitTimeout_stored (timeout : Nat) : (if timeout = 0 then 1 else timeout) = max timeout 1 := by
  split <;> omega

theorem opSetGroup_passed {trigger : Trigger} (hidle : s.groupState g = .idle)
    (htrigger : Trigger.ofFields kind cue edge target = some trigger) (htimeout : timeout ≤ 255) :
    opSetGroup g.val kind cue edge target timeout s
      = (s.withTrigger g trigger timeout).answer .ok (.commitTimeout (max timeout 1)) := by
  have hpass : ¬ s.groupState g ≠ .idle := not_not_intro hidle
  have hrange : within 0 255 timeout = true := by simp [within, htimeout]
  simp only [opSetGroup, recordId_val, if_neg hpass, htrigger, hrange, commitTimeout_stored]
  rfl

end

/-! ### The statement -/

/-- Settles O29: each clause is the test of R66 that decides, and past them the fields form the trigger of their kind. -/
theorem groupSet : Obligations.GroupSet := by
  unfold Obligations.GroupSet
  refine ⟨fun s unit group kind cue edge target timeout ht hgroup => ?noRecord,
    fun s unit g kind cue edge target timeout ht => ⟨fun hbusy => ?busy, fun hidle hmisfit => ?misfit,
      fun hidle hfit => ?passed⟩,
    fun s unit group kind cue edge target timeout hstarting => ?starting⟩
  case noRecord => exact exec_setGroup_replied ht fun _ => opSetGroup_noRecord hgroup
  case busy => exact exec_setGroup_replied ht fun _ => opSetGroup_busy hbusy
  case misfit => exact exec_setGroup_replied ht fun _ => opSetGroup_misfit hidle hmisfit
  case passed =>
    obtain ⟨trigger, htrigger, hkinds⟩ :=
      Trigger.ofFields_eq_some (fun hfields => hfit (hfields.imp_right .inl)) target
    have htimeout : timeout ≤ 255 := Nat.not_lt.1 fun h => hfit (.inr (.inr h))
    exact ⟨trigger, exec_setGroup_replied (t := s.withTrigger g trigger timeout) ht fun _ =>
      opSetGroup_passed hidle htrigger htimeout, hkinds⟩
  case starting => exact congrArg Host.Outcome.next (State.hostCommand_starting hstarting unit _ _)

end Sys2Proof.Machine

/-! SUPPORT. SET_BLACKOUT and CLEAR_BLACKOUT (R172, R173): the modes and marks SET_BLACKOUT takes, what its inversions do to the
cue levels (R170), what each command answers at the test that decides, and the statement BlackoutCommands. -/

namespace Sys2Proof.Machine

/-! ### An immediate answer -/

/-- A taken SET_BLACKOUT answers as its own tests say. -/
theorem exec_setBlackout_replied {s t : State} {unit mode : Nat} {marks : Option (Table Nat 4)} {status : Status}
    {p : Payload} (ht : s.Takes unit 27)
    (hop : ∀ bytes, opSetBlackout mode marks (s.takeFrame bytes) = (t.takeFrame bytes).answer status p) :
    exec (.setBlackout unit mode marks) s = .next (t.replied unit (.setBlackout mode marks) status p) := by
  have hl : (HostCmd.setBlackout mode marks).payload.length ≤ 4101 := by
    cases marks with
    | none => simp [HostCmd.payload, leBytes]
    | some n => simp [HostCmd.payload, leBytes, n.len]
  exact congrArg Host.Outcome.next (State.hostCommand_replied ht hl (hop _))

/-- A taken CLEAR_BLACKOUT answers as its own tests say. -/
theorem exec_clearBlackout_replied {s t : State} {unit : Nat} {status : Status} {p : Payload} (ht : s.Takes unit 28)
    (hop : ∀ bytes, opClearBlackout (s.takeFrame bytes) = (t.takeFrame bytes).answer status p) :
    exec (.clearBlackout unit) s = .next (t.replied unit .clearBlackout status p) := by
  have hl : HostCmd.clearBlackout.payload.length ≤ 4101 := by simp [HostCmd.payload]
  exact congrArg Host.Outcome.next (State.hostCommand_replied ht hl (hop _))

/-! ### The fields of SET_BLACKOUT -/

theorem BlackoutMode.ofCode_eq_none {mode : Nat} (h : 2 < mode) : BlackoutMode.ofCode mode = none := by
  match mode, h with
  | n + 3, _ => rfl

theorem BlackoutMode.ofCode_of_mem {mode : Nat} {m : BlackoutMode}
    (h : (mode, m) ∈ [(0, BlackoutMode.off), (1, .level), (2, .latch)]) : BlackoutMode.ofCode mode = some m := by
  simp only [List.mem_cons, Prod.mk.injEq, List.not_mem_nil, or_false] at h
  obtain ⟨rfl, rfl⟩ | ⟨rfl, rfl⟩ | ⟨rfl, rfl⟩ := h <;> rfl

theorem markOf_isSome_iff {n : Nat} : (markOf n).isSome = true ↔ n ≤ 1 := by
  match n with
  | 0 => simp [markOf]
  | 1 => simp [markOf]
  | n + 2 => simp [markOf]

/-- The test of a table of marks, read row by row. -/
theorem marksOf_eq {n : Nat} (t : Table Nat n) :
    marksOf t = if ∀ i, t.get i ≤ 1 then some (Table.mapIdx (fun _ m => decide (m = 1)) t) else none := by
  simp only [marksOf, List.all_eq_true, markOf_isSome_iff, Table.mem_rows, forall_exists_index, forall_apply_eq_imp_iff]

theorem inversionMarks_eq_none {t : Table Nat 4} {c : CueId} (h : 1 < t.get c) : inversionMarks (some t) = none := by
  have hfail : ¬ ∀ i, t.get i ≤ 1 := fun hall => Nat.not_lt.2 (hall c) h
  simp only [inversionMarks, marksOf_eq, if_neg hfail, Option.map_none]

theorem inversionMarks_eq_some {marks : Option (Table Nat 4)} (h : ∀ n c, marks = some n → n.get c ≤ 1) :
    inversionMarks marks = some (marks.map (Table.mapIdx fun _ m => decide (m = 1))) := by
  cases marks with
  | none => rfl
  | some n =>
    have hpass : ∀ i, n.get i ≤ 1 := fun i => h n i rfl
    simp only [inversionMarks, marksOf_eq, if_pos hpass, Option.map_some]

/-! ### The inversions, the latch and the state (R170 to R172) -/

/-- A level is reversed where the old and the new inversion differ. -/
theorem reversedWhere_eq (old new : Bool) (level : Option Bool) :
    reversedWhere old new level = level.map fun l => l != (old != new) := by
  cases old <;> cases new <;> simp [reversedWhere]

/-- What a write of the inversions leaves, given the inversion of each cue after it (R170). -/
theorem Cbi.invert_eq {marks : Option (Table Bool 4)} {c : Cbi} {inverted : CueId → Bool}
    (h : ∀ i, (c.invert marks).inversion.get i = inverted i) :
    c.invert marks = { c with
      inversion := Table.ofFn inverted
      cue := Table.ofFn fun i => (c.cue.get i).map fun level => level != (c.inversion.get i != inverted i) } := by
  have hinversion : (c.invert marks).inversion = Table.ofFn inverted := Table.ext_get fun i => by rw [h, Table.get_ofFn]
  have hcue : (c.invert marks).cue
      = Table.ofFn fun i => (c.cue.get i).map fun level => level != (c.inversion.get i != inverted i) := by
    apply Table.ext_get
    intro i
    rw [Table.get_ofFn, ← h]
    cases marks with
    | none => simp [Cbi.invert]
    | some m => simp only [Cbi.invert, Table.get_mapIdx, reversedWhere_eq]
  rw [← hinversion, ← hcue]
  cases marks <;> rfl

/-- What SET_BLACKOUT writes, given the inversion of each cue after it (R172). -/
theorem Cbi.setMode_eq {m : BlackoutMode} {marks : Option (Table Bool 4)} {c : Cbi} {inverted : CueId → Bool}
    (h : ∀ i, (c.invert marks).inversion.get i = inverted i) :
    c.setMode m marks = { c with
      mode := m
      latch := c.latchAfter m
      state := blackoutOf m c.input (c.latchAfter m)
      inversion := Table.ofFn inverted
      cue := Table.ofFn fun i => (c.cue.get i).map fun level => level != (c.inversion.get i != inverted i) } := by
  rw [Cbi.setMode, Cbi.invert_eq h]
  rfl

/-- With the latch clear only LEVEL follows the input (R171). -/
theorem blackoutOf_unlatched (m : BlackoutMode) (input : Bool) :
    blackoutOf m input false = match m with | .off => false | .level => input | .latch => false := by
  cases m <;> rfl

/-! ### The two commands' own tests, in order (R172, R173) -/

section
variable {s : State} {mode : Nat} {m : BlackoutMode} {marks : Option (Table Nat 4)}

/-- SET_BLACKOUT's one test, in its two readings: the mode names none, or a mark is neither off nor on. -/
theorem opSetBlackout_misfit (h : 2 < mode ∨ ∃ t c, marks = some t ∧ 1 < t.get c) :
    opSetBlackout mode marks s = s.answer .badValue .empty := by
  obtain hmode | ⟨t, c, rfl, hmark⟩ := h
  · simp only [opSetBlackout, BlackoutMode.ofCode_eq_none hmode]
  · simp only [opSetBlackout, inversionMarks_eq_none hmark]
    cases BlackoutMode.ofCode mode <;> rfl

theorem opSetBlackout_passed {inv : Option (Table Bool 4)} (hmode : BlackoutMode.ofCode mode = some m)
    (hmarks : inversionMarks marks = some inv) :
    opSetBlackout mode marks s = State.answer { s with cbi := s.cbi.setMode m inv } .ok
      (.blackout m (s.cbi.setMode m inv).latch (s.cbi.setMode m inv).state) := by
  simp only [opSetBlackout, hmode, hmarks]
  rfl

theorem opClearBlackout_clear (hlatch : s.cbi.latch = false) : opClearBlackout s = s.answer .nothingPending .empty :=
  if_pos hlatch

theorem opClearBlackout_asserted (hlatch : s.cbi.latch = true) (hinput : s.cbi.input = true) :
    opClearBlackout s = s.answer .stillAsserted .empty := by
  simp [opClearBlackout, hlatch, hinput]

theorem opClearBlackout_passed {state : Bool} (hlatch : s.cbi.latch = true) (hinput : s.cbi.input = false)
    (hstate : blackoutOf s.cbi.mode s.cbi.input false = state) :
    opClearBlackout s = State.answer { s with cbi := { s.cbi with latch := false, state := state } } .ok .empty := by
  simp [opClearBlackout, Cbi.recomputed, hlatch, hinput, ← hstate]

end

/-! ### The statement -/

/-- Settles O52: each clause is the test of R172 or R173 that decides; past the test of SET_BLACKOUT the marks carried give the
inversion of each cue, and with it all that the command writes. -/
theorem blackoutCommands : Obligations.BlackoutCommands := by
  unfold Obligations.BlackoutCommands
  refine ⟨fun s unit mode marks ht hbad => ?misfit, fun s unit mode m marks ht hmem hmarks => ?passed,
    fun s unit ht => ⟨fun hlatch => ?clear, fun hlatch hinput => ?asserted, fun hlatch hinput => ?cleared⟩⟩
  case misfit => exact exec_setBlackout_replied ht fun _ => opSetBlackout_misfit hbad
  case passed =>
    intro latch state inverted
    have hlatch : s.cbi.latchAfter m = latch := by cases m <;> rfl
    have hstate : blackoutOf m s.cbi.input latch = state := by cases m <;> rfl
    have hinverted : ∀ i, (s.cbi.invert (marks.map (Table.mapIdx fun _ n => decide (n = 1)))).inversion.get i = inverted i := by
      cases marks with
      | none => exact fun _ => rfl
      | some n => exact fun i => Table.get_mapIdx _ n i
    have hcbi := Cbi.setMode_eq (m := m) hinverted
    rw [hlatch, hstate] at hcbi
    refine exec_setBlackout_replied ht fun bytes => ?_
    rw [opSetBlackout_passed (BlackoutMode.ofCode_of_mem hmem) (inversionMarks_eq_some hmarks), State.takeFrame_cbi, hcbi]
    rfl
  case clear => exact exec_clearBlackout_replied ht fun _ => opClearBlackout_clear hlatch
  case asserted => exact exec_clearBlackout_replied ht fun _ => opClearBlackout_asserted hlatch hinput
  case cleared =>
    exact exec_clearBlackout_replied ht fun _ => opClearBlackout_passed hlatch hinput (blackoutOf_unlatched _ _)

end Sys2Proof.Machine

/-! SUPPORT. SYNC_WORD_ARRIVAL of words that did not arrive (R91, R192): when fourteen bytes carry a word, and the statement
BadWordsDoNotArrive. -/

namespace Sys2Proof

/-! ### The fields of a sync word's bytes -/

/-- A field of one byte is that byte. -/
theorem field_one {bytes : List Byte} {i : Nat} (h : i < bytes.length) : field bytes i 1 = bytes[i].toNat := by
  have htake : (bytes.drop i).take 1 = [bytes[i]] := by rw [List.drop_eq_getElem_cons h]; rfl
  rw [field, htake]; rfl

theorem field_one_ofFn {n : Nat} (b : Fin n → Byte) (i : Fin n) : field (List.ofFn b) i.val 1 = (b i).toNat := by
  rw [field_one (by simp), List.getElem_ofFn]

/-- The check byte that thirteen bytes ask for is their sum. -/
theorem checkSum_take_ofFn (b : Fin 14 → Byte) :
    checkSum ((List.ofFn b).take 13)
      = b 0 + b 1 + b 2 + b 3 + b 4 + b 5 + b 6 + b 7 + b 8 + b 9 + b 10 + b 11 + b 12 := by
  have hfold : checkSum ((List.ofFn b).take 13)
      = 0 + b 0 + b 1 + b 2 + b 3 + b 4 + b 5 + b 6 + b 7 + b 8 + b 9 + b 10 + b 11 + b 12 := rfl
  rw [hfold, zero_add]

/-- Bytes carry no word exactly where there are not fourteen of them, the check is wrong or a field is out of place (R192). -/
theorem parseSyncWord_eq_none_iff {bytes : List Byte} :
    parseSyncWord bytes = none ↔ bytes.length ≠ 14 ∨ field bytes 13 1 ≠ (checkSum (bytes.take 13)).toNat
      ∨ 3 < field bytes 0 1 ∨ 7 < field bytes 1 1 ∨ 15 < field bytes 6 1
      ∨ (8 ≤ field bytes 7 1 ∧ field bytes 7 1 ≤ 254) ∨ 1 < field bytes 12 1 := by
  simp only [parseSyncWord]
  split
  · next hlen => simp [hlen]
  · next hlen =>
    split
    · next hcheck => simp [hcheck]
    · next hcheck =>
      split
      · next hfield => exact iff_of_true rfl (.inr (.inr hfield))
      · next hfield => exact iff_of_false nofun (not_or_intro hlen (not_or_intro hcheck hfield))

/-- The faults that R192 lists, byte by byte. -/
theorem parseSyncWord_ofFn_eq_none {b : Fin 14 → Byte}
    (h : b 13 ≠ b 0 + b 1 + b 2 + b 3 + b 4 + b 5 + b 6 + b 7 + b 8 + b 9 + b 10 + b 11 + b 12
      ∨ 3 < (b 0).toNat ∨ 7 < (b 1).toNat ∨ 15 < (b 6).toNat ∨ (8 ≤ (b 7).toNat ∧ (b 7).toNat ≤ 254)
      ∨ 1 < (b 12).toNat) : parseSyncWord (List.ofFn b) = none := by
  rw [← checkSum_take_ofFn, ne_eq, ← BitVec.toNat_inj] at h
  simp only [← field_one_ofFn b] at h
  exact parseSyncWord_eq_none_iff.2 (.inr h)

end Sys2Proof

namespace Sys2Proof.Machine

/-! ### Words that change nothing -/

theorem exec_syncWordArrival (bytes : List Byte) (s : State) :
    exec (.syncWordArrival bytes) s = execSyncWordArrival bytes s := rfl

/-- A master does not read FSYNC (R91). -/
theorem exec_syncWordArrival_master {s : State} (h : s.clc.straps.role = .master) (bytes : List Byte) :
    exec (.syncWordArrival bytes) s = .next s := by
  rw [exec_syncWordArrival, execSyncWordArrival, h]

/-- On a slave bytes that carry no word did not arrive (R192). -/
theorem exec_syncWordArrival_unread {s : State} {bytes : List Byte} (h : s.clc.straps.role = .slave)
    (hbad : parseSyncWord bytes = none) : exec (.syncWordArrival bytes) s = .next s := by
  rw [exec_syncWordArrival, execSyncWordArrival, h, hbad]

/-! ### The statement -/

/-- Settles O6: a fault that R192 lists leaves the bytes with no word to read, and a word's last byte is the check of its body. -/
theorem badWordsDoNotArrive : Obligations.BadWordsDoNotArrive := by
  unfold Obligations.BadWordsDoNotArrive
  refine ⟨fun bytes s hslave _ b hbytes hbad => ?faulty, fun bytes s hmaster => ?master, fun w => ?formed⟩
  case faulty => exact exec_syncWordArrival_unread hslave (hbytes ▸ parseSyncWord_ofFn_eq_none hbad)
  case master => exact exec_syncWordArrival_master hmaster bytes
  case formed => exact ⟨checkSum w.body, rfl, rfl⟩

end Sys2Proof.Machine

/-! SUPPORT. EVENTS and SET_EVENT_ENABLES (R189, R190): what a flag is returned as, what each command answers, what a report finds
afterwards, and the statement EventsReturnedAndCleared. -/

namespace Sys2Proof.Machine

/-! ### The flags as EVENTS returns them -/

theorem gathersMask_iff {i : Fin 16} : gathersMask i = true ↔ i.val ∈ [6, 7, 8, 12] := by
  simp [gathersMask, Fin.ext_iff, or_assoc]

theorem Evb.reports_eq (e : Evb) :
    e.reports = (List.finRange 16).filterMap fun i => (e.flags.get i).map fun r =>
      ⟨i, r.detail, r.repeats, if i.val ∈ [6, 7, 8, 12] then some r.mask else none⟩ := by
  have hflag : ∀ i, flagReport i
      = fun r => ⟨i, r.detail, r.repeats, if i.val ∈ [6, 7, 8, 12] then some r.mask else none⟩ :=
    fun i => funext fun r => by simp only [flagReport, gathersMask_iff]
  simp only [Evb.reports, hflag]

theorem Evb.reports_eq_nil {e : Evb} (h : ∀ i, e.flags.get i = none) : e.reports = [] :=
  List.filterMap_eq_nil_iff.2 fun i _ => by rw [h, Option.map_none]

/-! ### A report, and the wish for attention -/

@[simp] theorem Evb.cleared_get (e : Evb) (i : Fin 16) : e.cleared.flags.get i = none := Table.get_replicate none i

/-- A report to a flag that is clear sets it afresh (R188). -/
theorem Evb.record_get_of_clear {e : Evb} {d : Detail} (h : e.flags.get d.flag = none) :
    (e.record d).flags.get d.flag = some ⟨d, 1, d.maskBit⟩ := by
  simp only [Evb.record, Table.get_set_self, h, FlagRec.after]

theorem State.wantsAttention_iff {s : State} :
    s.wantsAttention = true ↔ ∃ i, (s.evb.flags.get i).isSome = true ∧ s.evb.enables.get i = true := by
  simp [State.wantsAttention]

/-! ### The marks of SET_EVENT_ENABLES -/

theorem marksOf_eq_some {n : Nat} {marks : Table Nat n} (h : ∀ i, marks.get i ≤ 1) :
    marksOf marks = some (Table.ofFn fun i => decide (marks.get i = 1)) := by
  have htable : Table.mapIdx (fun _ m => decide (m = 1)) marks = Table.ofFn fun i => decide (marks.get i = 1) :=
    Table.ext_get fun i => by rw [Table.get_mapIdx, Table.get_ofFn]
  rw [marksOf_eq, if_pos h, htable]

theorem marksOf_eq_none {n : Nat} {marks : Table Nat n} (h : ∃ i, 1 < marks.get i) : marksOf marks = none := by
  obtain ⟨i, hi⟩ := h
  rw [marksOf_eq, if_neg fun hall => Nat.not_lt.2 (hall i) hi]

/-! ### The two commands (R189) -/

/-- An answer moves the link alone. -/
@[simp] theorem State.replied_evb (t : State) (unit : Nat) (c : HostCmd) (status : Status) (p : Payload) :
    (t.replied unit c status p).evb = t.evb := rfl

@[simp] theorem State.replied_phase (t : State) (unit : Nat) (c : HostCmd) (status : Status) (p : Payload) :
    (t.replied unit c status p).phase = t.phase := rfl

section
variable {s : State} {unit : Nat} {marks : Table Nat 16}

/-- A taken EVENTS returns every set flag and clears them all. -/
theorem exec_events_replied (ht : s.Takes unit 30) :
    exec (.events unit) s
      = .next (State.replied { s with evb := s.evb.cleared } unit .events .ok (.events s.evb.reports)) := by
  have hl : HostCmd.events.payload.length ≤ 4101 := by simp [HostCmd.payload]
  exact congrArg Host.Outcome.next (State.hostCommand_replied (op := opEvents) ht hl rfl)

/-- A taken SET_EVENT_ENABLES answers as its own test says. -/
theorem exec_setEventEnables_replied {t : State} {status : Status} {p : Payload} (ht : s.Takes unit 31)
    (hop : ∀ bytes, opSetEventEnables marks (s.takeFrame bytes) = (t.takeFrame bytes).answer status p) :
    exec (.setEventEnables unit marks) s = .next (t.replied unit (.setEventEnables marks) status p) := by
  have hl : (HostCmd.setEventEnables marks).payload.length ≤ 4101 := by simp [HostCmd.payload, leBytes, marks.len]
  exact congrArg Host.Outcome.next (State.hostCommand_replied ht hl (hop _))

/-- With every mark 0 or 1 all sixteen enables are written. -/
theorem exec_setEventEnables_passed (ht : s.Takes unit 31) (h : ∀ i, marks.get i ≤ 1) :
    exec (.setEventEnables unit marks) s = .next (State.replied
      { s with evb := { s.evb with enables := Table.ofFn fun i => decide (marks.get i = 1) } }
      unit (.setEventEnables marks) .ok .empty) :=
  exec_setEventEnables_replied ht fun _ => by simp only [opSetEventEnables, marksOf_eq_some h]; rfl

/-- With any other mark none is written. -/
theorem exec_setEventEnables_misfit (ht : s.Takes unit 31) (h : ∃ i, 1 < marks.get i) :
    exec (.setEventEnables unit marks) s = .next (s.replied unit (.setEventEnables marks) .badValue .empty) :=
  exec_setEventEnables_replied ht fun _ => by simp only [opSetEventEnables, marksOf_eq_none h]

/-- A report taken after EVENTS finds its flag clear. -/
theorem report_get_after_events {t : State} (ht : s.Takes unit 30) (hexec : exec (.events unit) s = .next t) (d : Detail) :
    (t.report d).evb.flags.get d.flag = some ⟨d, 1, d.maskBit⟩ := by
  rw [exec_events_replied ht] at hexec
  obtain rfl := Host.Outcome.next.inj hexec
  have hphase : s.phase ≠ .starting := ht.1
  rw [State.report_evb, State.replied_phase, if_neg hphase, State.replied_evb]
  exact Evb.record_get_of_clear (s.evb.cleared_get d.flag)

/-- Enabling a flag that is set makes the part want attention (R190). -/
theorem wantsAttention_after_setEventEnables {t : State} {i : Fin 16} (ht : s.Takes unit 31) (h : ∀ j, marks.get j ≤ 1)
    (hmark : marks.get i = 1) (hset : (s.evb.flags.get i).isSome = true)
    (hexec : exec (.setEventEnables unit marks) s = .next t) : t.wantsAttention = true := by
  rw [exec_setEventEnables_passed ht h] at hexec
  obtain rfl := Host.Outcome.next.inj hexec
  have henabled : (Table.ofFn fun j => decide (marks.get j = 1)).get i = true := by simp [hmark]
  exact State.wantsAttention_iff.2 ⟨i, hset, henabled⟩

end

/-! ### The statement -/

/-- Settles O11: EVENTS and the two outcomes of SET_EVENT_ENABLES, then what a report and the wish for attention read of the event
block they leave. -/
theorem eventsReturnedAndCleared : Obligations.EventsReturnedAndCleared := by
  unfold Obligations.EventsReturnedAndCleared
  refine ⟨fun s unit ht => ?returned, fun s unit marks ht hmarks => ?written, fun s unit marks ht hbad => ?refused,
    fun s unit ht hclear => ?empty, fun s t unit d ht hexec => ?afresh,
    fun s unit marks i t ht hmarks hmark hset hexec => ?attention⟩
  case returned => rw [← Evb.reports_eq]; exact exec_events_replied ht
  case written => exact exec_setEventEnables_passed ht hmarks
  case refused => exact exec_setEventEnables_misfit ht hbad
  case empty => rw [← Evb.reports_eq_nil hclear]; exact exec_events_replied ht
  case afresh => exact report_get_after_events ht hexec d
  case attention => exact wantsAttention_after_setEventEnables ht hmarks hmark hset hexec

end Sys2Proof.Machine

/-! SUPPORT. What every host command's row is, and what a taken command leaves; the plain statements of the queue, the link's reads, the
phases and the settings: StepRunsFrontCommand, ReadsAnswered, IdentifyAndStatusAnswer, ReportsGather, StopAndSetTiming,
GeometryCommands. -/

namespace Sys2Proof.Machine

/-! ### Every host command's row -/

/-- A host command's row is its frame on the link with the command's own tests and effect; POLL alone also moves GIN. -/
theorem exec_toInstr (unit : Nat) (c : HostCmd) (s : State) :
    exec (c.toInstr unit) s = .next ((s.hears (encodeFrame unit c)).hostCommand unit c (commandOp c)) := by
  cases c with
  | poll => rfl
  | _ => rw [State.hears_other s (encodeFrame_ne_pollFrame (by simp [HostCmd.code]))]; rfl

/-- The command is not POLL, whose row also moves GIN. -/
theorem exec_toInstr_of_ne_poll (unit : Nat) {c : HostCmd} (h : c.code % 256 ≠ 32) (s : State) :
    exec (c.toInstr unit) s = .next (s.hostCommand unit c (commandOp c)) := by
  rw [exec_toInstr, State.hears_other s (encodeFrame_ne_pollFrame h)]

@[simp] theorem leBytes_length (count n : Nat) : (leBytes count n).length = count := by
  induction count generalizing n with
  | zero => rfl
  | succ k ih => simp [leBytes, ih]

/-- Only UPLOAD's payload has no fixed length (10, section 10.6 "Command payloads"). -/
theorem HostCmd.payload_length_le {c : HostCmd} (h : ∀ id off chunk, c = .upload id off chunk → chunk.length ≤ 4096) :
    c.payload.length ≤ 4101 := by
  cases c with
  | upload id off chunk => have := h _ _ _ rfl; simp [HostCmd.payload]; omega
  | defineSurface id f w h c b k => cases k <;> simp [HostCmd.payload]
  | tilePower s w u => cases u <;> simp [HostCmd.payload]
  | tileMode s m f l => cases f <;> cases l <;> simp [HostCmd.payload, Rgb.bytes]
  | setBlackout m i => cases i <;> simp [HostCmd.payload, Table.len]
  | setEventEnables m => simp [HostCmd.payload, Table.len]
  | place id g v => simp [HostCmd.payload, RawValues.bytes]
  | amend id v r => simp [HostCmd.payload, RawValues.bytes]
  | setBackground c => simp [HostCmd.payload, Rgb.bytes]
  | _ => simp [HostCmd.payload]

/-- A taken command whose own tests answer at once leaves what they leave, with the answer in the link (R179 to R181). -/
theorem exec_replied {s t : State} {unit : Nat} {c : HostCmd} {status : Status} {p : Payload} (ht : s.Takes unit c.code)
    (hpoll : c.code % 256 ≠ 32 := by simp [HostCmd.code])
    (hl : c.payload.length ≤ 4101 := by exact HostCmd.payload_length_le nofun)
    (hop : ∀ bytes, commandOp c (s.takeFrame bytes) = (t.takeFrame bytes).answer status p) :
    exec (c.toInstr unit) s = .next (t.replied unit c status p) := by
  rw [exec_toInstr_of_ne_poll unit hpoll]
  exact congrArg Host.Outcome.next (State.hostCommand_replied ht hl (hop _))

/-! ### The queue -/

/-- Settles O1: both clauses are `step`'s own two cases. -/
theorem stepRunsFrontCommand : Obligations.StepRunsFrontCommand := by
  unfold Obligations.StepRunsFrontCommand
  refine ⟨fun c rest s => rfl, fun s => ?_⟩
  have hnow : max s.now (s.now + 1) = s.now + 1 := by omega
  show Host.Outcome.next { s with pending := [], now := max s.now (s.now + 1) } = _
  rw [hnow]

/-! ### Reads (R180) -/

theorem exec_readTransfer (unit : Nat) (complete : Bool) (s : State) :
    exec (.readTransfer unit complete) s = execReadTransfer unit complete s := rfl

/-- A unit number is never the broadcast unit byte. -/
theorem unit_ne_broadcast (p : Straps) : p.unit.val ≠ broadcastUnit := by
  have := p.unit.isLt
  unfold broadcastUnit; omega

theorem exec_readTransfer_own (s : State) (complete : Bool) :
    exec (.readTransfer s.clc.straps.unit.val complete) s = .next { s with clc := { s.clc with
      readOut := s.unitRead
      response := if complete && s.phase ≠ .starting && s.clc.executing.isNone then none else s.clc.response } } := by
  rw [exec_readTransfer, execReadTransfer, if_neg (unit_ne_broadcast s.clc.straps), if_pos rfl]

/-- Nothing is ready to read in STARTING, while a command executes, or with no response waiting. -/
theorem State.unitRead_notReady {s : State} (h : s.phase = .starting ∨ s.clc.executing ≠ none ∨ s.clc.response = none) :
    s.unitRead = .notReady := by
  unfold State.unitRead
  rcases h with h | h | h
  · simp [h]
  · simp [Option.isSome_iff_ne_none, h]
  · simp [h]

theorem State.unitRead_response {s : State} {r : Response} (hp : s.phase ≠ .starting) (he : s.clc.executing = none)
    (hr : s.clc.response = some r) : s.unitRead = .frame r := by
  simp [State.unitRead, hp, he, hr]

/-- A read that finds nothing ready collects nothing. -/
theorem State.response_kept {s : State} (h : s.phase = .starting ∨ s.clc.executing ≠ none ∨ s.clc.response = none)
    (complete : Bool) :
    (if complete && s.phase ≠ .starting && s.clc.executing.isNone then none else s.clc.response) = s.clc.response := by
  rcases h with h | h | h
  · simp [h]
  · simp [h]
  · simp [h]

/-- The bytes of a response frame: status code, command code, overrun mark, length, payload. -/
theorem Response.bytes_eq (r : Response) :
    r.bytes = BitVec.ofNat 8 r.status.code :: BitVec.ofNat 8 r.code :: (if r.overrun then 1 else 0)
      :: BitVec.ofNat 8 r.payload.bytes.length :: BitVec.ofNat 8 (r.payload.bytes.length / 256) :: r.payload.bytes := by
  cases hr : r.overrun <;> simp [Response.bytes, leBytes, hr]

/-- Settles O8: one read of each kind, and the bytes of each answer. -/
theorem readsAnswered : Obligations.ReadsAnswered := by
  unfold Obligations.ReadsAnswered
  refine ⟨fun s complete h => ?notReady, fun s complete r hp he hr => ?response, fun s complete a ha => ?pollAnswer,
    fun s complete ha => ?noAnswer, fun s complete unit hu hb => ?other, rfl, rfl, fun status => ?codes,
    fun r => ⟨_, _, r.bytes_eq, fun hlt => ?_, fun he => by rw [he]; rfl⟩⟩
  case notReady => rw [exec_readTransfer_own, State.unitRead_notReady h, State.response_kept h]
  case response =>
    rw [exec_readTransfer_own, State.unitRead_response hp he hr]
    simp [hp, he, hr]
  case pollAnswer => simp [exec_readTransfer, execReadTransfer, broadcastUnit, State.pollRead, ha]
  case noAnswer => simp [exec_readTransfer, execReadTransfer, broadcastUnit, State.pollRead, ha]
  case other =>
    have hb' : unit ≠ broadcastUnit := hb
    rw [exec_readTransfer, execReadTransfer, if_neg hb', if_neg hu]
  case codes => cases status <;> decide
  · simp only [BitVec.toNat_ofNat]; omega

/-! ### IDENTIFY and STATUS (R186, R187) -/

/-- Settles O10: both commands answer with fields of the part as it stands. -/
theorem identifyAndStatusAnswer : Obligations.IdentifyAndStatusAnswer := by
  unfold Obligations.IdentifyAndStatusAnswer
  exact ⟨fun s unit ht => exec_replied (c := .identify) ht (hop := fun _ => rfl),
    fun s unit ht => exec_replied (c := .status) (t := { s with freeCount := s.freeCount + 1 }) ht (hop := fun _ => rfl)⟩

/-! ### Reports (R188) -/

theorem Evb.record_get (e : Evb) (d : Detail) :
    (e.record d).flags.get d.flag = some (FlagRec.after d (e.flags.get d.flag)) := Table.get_set_self _ _ _

theorem Evb.record_get_ne (e : Evb) {d : Detail} {i : Fin 16} (h : i ≠ d.flag) :
    (e.record d).flags.get i = e.flags.get i := Table.get_set_ne _ _ h.symm

@[simp] theorem Evb.record_enables (e : Evb) (d : Detail) : (e.record d).enables = e.enables := rfl

/-- The mask of one number holds its bit and no other. -/
theorem getLsbD_two_pow (t k : Fin 16) : (BitVec.ofNat 16 (2 ^ t.val)).getLsbD k.val = decide (k = t) := by
  simp only [BitVec.getLsbD_ofNat, Nat.testBit_two_pow, Fin.ext_iff, k.isLt, decide_true, Bool.true_and]
  exact decide_eq_decide.2 eq_comm

/-- Settles O12: each clause is what `Evb.record` makes of a flag. -/
theorem reportsGather : Obligations.ReportsGather := by
  unfold Obligations.ReportsGather
  refine ⟨fun e d h => Evb.record_get_of_clear h, fun e d r h => ?_, fun e d i h => e.record_get_ne h, fun e d => rfl,
    fun s d => rfl, fun t a b n f l c x => ⟨getLsbD_two_pow t, getLsbD_two_pow t, getLsbD_two_pow t, fun k => ?_⟩⟩
  · rw [Evb.record_get, h]; rfl
  · have := getLsbD_two_pow ⟨c.val, by omega⟩ k
    simpa [Detail.maskBit, Fin.ext_iff] using this

/-! ### STOP and SET_TIMING (R184) -/

/-- Out of RUNNING the release conditions of R100 fail. -/
theorem State.rdyConditions_of_phase {s : State} (h : s.phase ≠ .running) : s.rdyConditions = false := by
  simp [State.rdyConditions, h]

/-- Where the release conditions fail a re-test holds RDY and leaves the rest (R101). -/
theorem State.retestRdy_of_fail {s : State} (h : s.rdyConditions = false) :
    s.retestRdy = { s with csu := { s.csu with rdyReleased := false } } := by
  simp [State.retestRdy, h]

theorem State.enterConfig_eq (s : State) :
    s.enterPhase .config = { s with phase := .config, csu := { s.csu with rdyReleased := false } } :=
  State.retestRdy_of_fail (State.rdyConditions_of_phase (by simp))

theorem Rate.ofHertz_of_mem {n : Nat} {r : Rate}
    (h : (n, r) ∈ [(24, Rate.hz24), (25, .hz25), (30, .hz30), (50, .hz50), (60, .hz60)]) : Rate.ofHertz n = some r := by
  simp only [List.mem_cons, Prod.mk.injEq, List.not_mem_nil, or_false] at h
  obtain ⟨rfl, rfl⟩ | ⟨rfl, rfl⟩ | ⟨rfl, rfl⟩ | ⟨rfl, rfl⟩ | ⟨rfl, rfl⟩ := h <;> rfl

theorem Rate.ofHertz_eq_none {n : Nat} (h : n ∉ [24, 25, 30, 50, 60]) : Rate.ofHertz n = none := by
  simp only [List.mem_cons, List.not_mem_nil, or_false, not_or] at h
  simp [Rate.ofHertz, h]

/-- Settles O13: out of RUNNING RDY is held; the rate code names one of five rates or none. -/
theorem stopAndSetTiming : Obligations.StopAndSetTiming := by
  unfold Obligations.StopAndSetTiming
  refine ⟨fun s unit ht => ?stop, fun s unit hertz r ht hr => ?stored, fun s unit hertz ht hr => ?refused⟩
  case stop =>
    refine exec_replied (c := .stop) (t := { s with phase := .config, csu := { s.csu with rdyReleased := false } }) ht
      (hop := fun bytes => ?_)
    show (State.enterPhase .config (s.takeFrame bytes)).answer _ _ = _
    rw [State.enterConfig_eq]; rfl
  case stored =>
    refine exec_replied (c := .setTiming hertz) (t := { s with rate := r }) ht (hop := fun bytes => ?_)
    simp only [commandOp, opSetTiming, Rate.ofHertz_of_mem hr]; rfl
  case refused =>
    refine exec_replied (c := .setTiming hertz) ht (hop := fun bytes => ?_)
    simp only [commandOp, opSetTiming, Rate.ofHertz_eq_none hr]

/-! ### SET_GEOMETRY and SET_TILE (R3, R5) -/

theorem geometryInRange_iff {w h gx gy : Nat} :
    geometryInRange w h gx gy = true ↔ 16 ≤ w ∧ w ≤ 4096 ∧ 16 ≤ h ∧ h ≤ 4096 ∧ gx ≤ 1023 ∧ gy ≤ 1023 := by
  simp [geometryInRange, within, and_assoc]

theorem tileFieldsInRange_iff {column row : Nat} {x y : Int} :
    (within 0 31 column && within 0 31 row && trimInRange x && trimInRange y) = true
      ↔ column ≤ 31 ∧ row ≤ 31 ∧ -8 ≤ x ∧ x ≤ 7 ∧ -8 ≤ y ∧ y ≤ 7 := by
  simp [within, trimInRange, and_assoc]

/-- A frame that test 5 of R178 refuses is answered WRONG_PHASE and changes nothing else. -/
theorem State.hostCommand_wrongPhase {s : State} {unit : Nat} {c : HostCmd} {op : CommandOp} (hp : s.phase ≠ .starting)
    (he : s.clc.executing = none) (hu : unit = s.clc.straps.unit.val ∨ unit = 15) (hl : hostRefusal unit c = none)
    (hr : phaseRefuses s.phase c.code = true) : s.hostCommand unit c op = s.replied unit c .wrongPhase .empty := by
  have hunit : s.forThisPart unit = true := by
    simp only [State.forThisPart, Bool.or_eq_true, decide_eq_true_eq]
    exact hu
  simp only [State.hostCommand, State.receive, if_neg hp, hunit, he, hl, hr]
  by_cases hb : unit = 15 <;>
    simp [State.deliver, State.takeFrame, State.replied, State.answered, broadcastUnit, hb]

/-- A command that may be broadcast and need not be passes tests 1 to 3 of R178. -/
theorem hostRefusal_eq_none {c : HostCmd} (unit : Nat) (hl : c.payload.length ≤ 4101) (hd : dataReturning c.code = false)
    (hq : c.code ≠ 32) : hostRefusal unit c = none := by
  simp [hostRefusal, wrongAddressing, hd, hq, Nat.not_lt.2 hl]

theorem exec_geometry_wrongPhase {s : State} {unit : Nat} {c : HostCmd} (hp : s.phase = .running)
    (he : s.clc.executing = none) (hu : unit = s.clc.straps.unit.val ∨ unit = 15) (hc : c.code = 4 ∨ c.code = 5)
    (hl : c.payload.length ≤ 4101) : exec (c.toInstr unit) s = .next (s.replied unit c .wrongPhase .empty) := by
  rw [exec_toInstr_of_ne_poll unit (by omega), State.hostCommand_wrongPhase (by simp [hp]) he hu]
  · exact hostRefusal_eq_none unit hl (by rcases hc with h | h <;> rw [h] <;> rfl) (by omega)
  · rcases hc with h | h <;> rw [h, hp] <;> rfl

/-- Settles O14: the ranges of each command, and test 5 of R178 in RUNNING. -/
theorem geometryCommands : Obligations.GeometryCommands := by
  unfold Obligations.GeometryCommands
  refine ⟨fun s unit w h gx gy ht => ?geometry, fun s unit t placed column row x y ht => ?tile,
    fun s unit tile placed column row x y ht hid => ?noTile, fun s unit w h gx gy tile placed column row x y hp he hu => ?phase⟩
  case geometry =>
    split
    · next hr =>
      refine exec_replied (c := .setGeometry w h gx gy) (t := { s with geo := ⟨w, h, gx, gy⟩ }) ht (hop := fun bytes => ?_)
      simp only [commandOp, opSetGeometry, if_pos (geometryInRange_iff.2 hr)]; rfl
    · next hr =>
      refine exec_replied (c := .setGeometry w h gx gy) ht (hop := fun bytes => ?_)
      simp only [commandOp, opSetGeometry, if_neg (mt geometryInRange_iff.1 hr)]
  case tile =>
    split
    · next hr =>
      refine exec_replied (c := .setTile t.val placed column row x y) (t := { s with tiles := s.tiles.set t { s.tiles.get t with
        placed := decide (placed ≠ 0), column := column, row := row, trimX := x, trimY := y } }) ht (hop := fun bytes => ?_)
      simp only [commandOp, opSetTile, recordId_val, if_pos (tileFieldsInRange_iff.2 hr)]; rfl
    · next hr =>
      refine exec_replied (c := .setTile t.val placed column row x y) ht (hop := fun bytes => ?_)
      simp only [commandOp, opSetTile, recordId_val, if_neg (mt tileFieldsInRange_iff.1 hr)]
  case noTile =>
    refine exec_replied (c := .setTile tile placed column row x y) ht (hop := fun bytes => ?_)
    simp only [commandOp, opSetTile, recordId_eq_none hid]
  case phase =>
    exact ⟨exec_geometry_wrongPhase (c := .setGeometry w h gx gy) hp he hu (.inl rfl) (HostCmd.payload_length_le nofun),
      exec_geometry_wrongPhase (c := .setTile tile placed column row x y) hp he hu (.inr rfl)
        (HostCmd.payload_length_le nofun)⟩

end Sys2Proof.Machine

/-! SUPPORT. The layouts of 10, section 10.6, read back field by field: PayloadReadsBack, SyncWordReadsBack, FrameIsItsCommand; and what
the link does with a frame and with the grant: FramesReceived, PollFindsAttention. -/

namespace Sys2Proof

/-! ### A field of bytes written one field after another -/

theorem leNat_leBytes (k n : Nat) : leNat (leBytes k n) = n % 256 ^ k := by
  induction k generalizing n with
  | zero => simp [leBytes, leNat, Nat.mod_one]
  | succ k ih => rw [leBytes, leNat, ih, Nat.pow_succ', Nat.mod_mul]; simp

/-- The first field written is the first read. -/
theorem field_head (k n : Nat) (rest : List Byte) : field (leBytes k n ++ rest) 0 k = n % 256 ^ k := by
  have htake : (leBytes k n ++ rest).take k = leBytes k n := List.take_left' (Machine.leBytes_length k n)
  rw [field, List.drop_zero, htake, leNat_leBytes]

/-- A field past the first is one of the rest. -/
theorem field_skip {k o : Nat} (h : k ≤ o) (n size : Nat) (rest : List Byte) :
    field (leBytes k n ++ rest) o size = field rest (o - k) size := by
  have hdrop : (leBytes k n ++ rest).drop o = rest.drop (o - k) := by
    rw [List.drop_append, Machine.leBytes_length, List.drop_eq_nil_of_le (by simpa using h), List.nil_append]
  rw [field, field, hdrop]

theorem fits1_iff {n : Nat} : fits1 n = true ↔ n < 256 := by simp [fits1]
theorem fits2_iff {n : Nat} : fits2 n = true ↔ n < 65536 := by simp [fits2]
theorem fits4_iff {n : Nat} : fits4 n = true ↔ n < 4294967296 := by simp [fits4]

section
variable {n : Nat} (rest : List Byte)

theorem field_byte (h : fits1 n = true) : field (leBytes 1 n ++ rest) 0 1 = n := by
  rw [field_head]; exact Nat.mod_eq_of_lt (fits1_iff.1 h)

theorem field_word (h : fits2 n = true) : field (leBytes 2 n ++ rest) 0 2 = n := by
  rw [field_head]; exact Nat.mod_eq_of_lt (fits2_iff.1 h)

theorem field_long (h : fits4 n = true) : field (leBytes 4 n ++ rest) 0 4 = n := by
  rw [field_head]; exact Nat.mod_eq_of_lt (fits4_iff.1 h)

theorem field_lastByte (h : fits1 n = true) : field (leBytes 1 n) 0 1 = n := by
  simpa using field_byte [] h

theorem field_lastWord (h : fits2 n = true) : field (leBytes 2 n) 0 2 = n := by
  simpa using field_word [] h

theorem field_lastLong (h : fits4 n = true) : field (leBytes 4 n) 0 4 = n := by
  simpa using field_long [] h

end

theorem flatMap_leBytes_one (l : List Nat) : l.flatMap (leBytes 1) = l.map (BitVec.ofNat 8) := by
  induction l with
  | nil => rfl
  | cons n l ih => rw [List.flatMap_cons, ih]; rfl

/-- Marks written one byte each are read back byte by byte. -/
theorem field_marks {k : Nat} {t : Table Nat k} (h : t.rows.all fits1 = true) (i : Fin k) :
    field (t.rows.flatMap (leBytes 1)) i.val 1 = t.get i := by
  have hfit : t.get i < 256 := fits1_iff.1 (List.all_eq_true.1 h _ (t.get_mem_rows i))
  rw [flatMap_leBytes_one, field_one (by simp [t.len])]
  simp only [List.getElem_map, BitVec.toNat_ofNat]
  exact Nat.mod_eq_of_lt hfit

theorem signedByte_code {n : Int} (h : fitsSigned1 n = true) :
    fits1 (signedByteCode n) = true ∧ signedByte (signedByteCode n) = n := by
  simp only [fitsSigned1, Bool.and_eq_true, decide_eq_true_eq] at h
  simp only [fits1_iff, signedByte, signedByteCode]
  constructor <;> split_ifs <;> omega

/-! ### The 27 bytes of values and the six of a colour -/

@[simp] theorem RawValues.bytes_length (v : RawValues) : v.bytes.length = 27 := by simp [RawValues.bytes]

@[simp] theorem Rgb.bytes_length (c : Rgb) : c.bytes.length = 6 := by simp [Rgb.bytes]

/-- Values are read back wherever they begin. -/
theorem fieldValues_read {v : RawValues} (h : v.fits = true) (p rest : List Byte) (o : Nat)
    (hp : p.drop o = v.bytes ++ rest) : fieldValues p o = v := by
  have hfield : ∀ k size, field p (o + k) size = field (v.bytes ++ rest) k size := fun k size => by
    rw [field, field, ← hp, List.drop_drop]
  have hfield0 : ∀ size, field p o size = field (v.bytes ++ rest) 0 size := hfield 0
  simp only [RawValues.fits, Bool.and_eq_true] at h
  simp only [fieldValues, hfield, hfield0, RawValues.bytes, List.append_assoc]
  simp [field_skip, field_byte, field_word, h]

/-- A colour is read back wherever it begins. -/
theorem fieldColour_read {c : Rgb} (h : c.fits = true) (p rest : List Byte) (o : Nat)
    (hp : p.drop o = c.bytes ++ rest) : fieldColour p o = c := by
  have hfield : ∀ k size, field p (o + k) size = field (c.bytes ++ rest) k size := fun k size => by
    rw [field, field, ← hp, List.drop_drop]
  have hfield0 : ∀ size, field p o size = field (c.bytes ++ rest) 0 size := hfield 0
  simp only [Rgb.fits, Bool.and_eq_true] at h
  simp only [fieldColour, hfield, hfield0, Rgb.bytes, List.append_assoc]
  simp [field_skip, field_word, h]

/-! ### Every command's payload -/

/-- The payload a well-formed command is written with reads back as the command. -/
theorem parseCommand_payload {c : HostCmd} (h : c.wellFormed = true) : parseCommand c.code c.payload = some c := by
  cases c
  case place id g v =>
    simp only [HostCmd.wellFormed, Bool.and_eq_true] at h
    have hv := fieldValues_read h.2 (leBytes 1 id ++ (leBytes 1 g ++ v.bytes)) [] 2 (by simp [leBytes])
    simp [HostCmd.code, HostCmd.payload, parseCommand, field_byte, field_skip, hv, h]
  case amend id v r =>
    simp only [HostCmd.wellFormed, Bool.and_eq_true] at h
    have hv := fieldValues_read h.1.2 (leBytes 1 id ++ v.bytes ++ leBytes 1 r) (leBytes 1 r) 1 (by simp [leBytes])
    have hlen : (leBytes 1 id ++ v.bytes ++ leBytes 1 r).length = 29 := by simp
    have hr : field (leBytes 1 id ++ v.bytes ++ leBytes 1 r) 28 1 = r := by
      have hdrop : (leBytes 1 id ++ v.bytes ++ leBytes 1 r).drop 28 = leBytes 1 r := List.drop_left' (by simp)
      rw [field, hdrop, ← List.drop_zero (l := leBytes 1 r)]
      exact field_lastByte h.2
    simp only [HostCmd.code, HostCmd.payload, parseCommand, hv, hr, hlen, if_true]
    simp [field_byte, h]
  case setBackground c =>
    simp only [HostCmd.code, HostCmd.payload, parseCommand, Rgb.bytes_length, if_true]
    rw [fieldColour_read h c.bytes [] 0 (by simp)]
  case tileMode s m f l =>
    simp only [HostCmd.wellFormed, Bool.and_eq_true] at h
    cases f with
    | none => cases l <;> simp_all [HostCmd.code, HostCmd.payload, parseCommand, fitsOption, field_byte, field_skip,
        field_lastByte, field_lastWord]
    | some c =>
      have hc : ∀ rest, fieldColour (leBytes 1 s ++ (leBytes 1 m ++ (c.bytes ++ rest))) 2 = c := fun rest =>
        fieldColour_read h.1.2 _ rest 2 (by simp [leBytes])
      have hc' := hc []
      have hl : ∀ n, fits2 n = true → field (leBytes 1 s ++ (leBytes 1 m ++ (c.bytes ++ leBytes 2 n))) 8 2 = n := by
        intro n hn
        have hdrop : (leBytes 1 s ++ (leBytes 1 m ++ (c.bytes ++ leBytes 2 n))).drop 8 = leBytes 2 n := by
          rw [← List.append_assoc, ← List.append_assoc]; exact List.drop_left' (by simp)
        rw [field, hdrop, ← List.drop_zero (l := leBytes 2 n)]
        exact field_lastWord hn
      cases l <;> simp_all [HostCmd.code, HostCmd.payload, parseCommand, fitsOption, field_byte, field_skip]
  case setBlackout m i =>
    simp only [HostCmd.wellFormed, Bool.and_eq_true] at h
    cases i with
    | none => simp [HostCmd.code, HostCmd.payload, parseCommand, field_lastByte, h]
    | some t =>
      have ht : (Table.ofFn fun i : Fin 4 => field (leBytes 1 m ++ t.rows.flatMap (leBytes 1)) (1 + i.val) 1) = t := by
        apply Table.ext_get
        intro i
        rw [Table.get_ofFn, field_skip (by omega), Nat.add_sub_cancel_left, field_marks h.2]
      simp [HostCmd.code, HostCmd.payload, parseCommand, field_byte, t.len, ht, h]
  case setEventEnables t =>
    have ht : (Table.ofFn fun i : Fin 16 => field (t.rows.flatMap (leBytes 1)) i.val 1) = t := by
      apply Table.ext_get
      intro i
      rw [Table.get_ofFn, field_marks h]
    simp [HostCmd.code, HostCmd.payload, parseCommand, t.len, ht]
  case setTile t p c r tx ty =>
    simp only [HostCmd.wellFormed, Bool.and_eq_true] at h
    have hx := signedByte_code h.1.2
    have hy := signedByte_code h.2
    simp [HostCmd.code, HostCmd.payload, parseCommand, field_byte, field_skip, field_lastByte, h, hx, hy]
  case defineSurface id f w h' c b k =>
    simp only [HostCmd.wellFormed, Bool.and_eq_true] at h
    cases k <;> simp_all [HostCmd.code, HostCmd.payload, parseCommand, fitsOption, field_byte, field_word, field_long,
      field_skip, field_lastLong]
  case tilePower s w u =>
    simp only [HostCmd.wellFormed, Bool.and_eq_true] at h
    cases u <;> simp_all [HostCmd.code, HostCmd.payload, parseCommand, fitsOption, field_byte, field_skip,
      field_lastByte, field_lastWord]
  case upload id off chunk =>
    simp only [HostCmd.wellFormed, Bool.and_eq_true, decide_eq_true_eq] at h
    have hdrop : (leBytes 1 id ++ (leBytes 4 off ++ chunk)).drop 5 = chunk := by
      rw [← List.append_assoc]; exact List.drop_left' (by simp)
    simp [HostCmd.code, HostCmd.payload, parseCommand, field_byte, field_long, field_skip, hdrop, h]
    omega
  all_goals
    simp only [HostCmd.wellFormed, Bool.and_eq_true] at h
    simp [HostCmd.code, HostCmd.payload, parseCommand, field_byte, field_word, field_long, field_lastByte, field_lastWord,
      field_skip, h]

/-- A code of the command code list. -/
theorem HostCmd.code_range (c : HostCmd) : 1 ≤ c.code ∧ c.code ≤ 32 := by
  cases c <;> exact ⟨by simp [HostCmd.code], by simp [HostCmd.code]⟩

/-- Which payload lengths a command code takes. -/
theorem parseCommand_isSome {code : Nat} (hlo : 1 ≤ code) (hhi : code ≤ 32) (p : List Byte) :
    (parseCommand code p).isSome = Machine.lengthTaken code p.length := by
  interval_cases code <;> simp only [parseCommand] <;> (repeat' split) <;> simp_all [Machine.lengthTaken]

/-! ### Sync words (R92, R192) -/

theorem SyncWord.groupByte_lt (w : SyncWord) : w.groupByte < 8 := by
  unfold SyncWord.groupByte
  split <;> exact Fin.isLt _

theorem WordKind.code_lt (k : WordKind) : k.code < 4 := by cases k <;> simp [WordKind.code]

/-- The kind byte and the group byte name the kind they were written for. -/
theorem wordKindOf_read (w : SyncWord) : wordKindOf w.kind.code w.groupByte = w.kind := by
  unfold SyncWord.groupByte
  cases w.kind <;> simp [wordKindOf, WordKind.code]

/-- The last-cut fields as a word is written with them: the group byte and the frame, a free value where no group is named. -/
def SyncWord.lastCutFields (w : SyncWord) : Nat × Frame :=
  match w.lastCut with
  | none => (255, Config.absentCutFrame w.frame)
  | some (g, f) => (g.val, f)

theorem SyncWord.body_eq (w : SyncWord) :
    w.body = leBytes 1 w.kind.code ++ (leBytes 1 w.groupByte ++ (leBytes 4 w.frame.toNat
      ++ (leBytes 1 w.cutSequence.toNat ++ (leBytes 1 w.lastCutFields.1 ++ (leBytes 4 w.lastCutFields.2.toNat
        ++ leBytes 1 (if w.blackout then 1 else 0)))))) := by
  unfold SyncWord.body SyncWord.lastCutFields
  cases w.lastCut <;> simp only [List.append_assoc]

theorem SyncWord.body_length (w : SyncWord) : w.body.length = 13 := by simp [SyncWord.body_eq]

/-- Every field of a word is read back from its bytes. -/
theorem SyncWord.fields_read (w : SyncWord) :
    field w.bytes 0 1 = w.kind.code ∧ field w.bytes 1 1 = w.groupByte ∧ field w.bytes 2 4 = w.frame.toNat
      ∧ field w.bytes 6 1 = w.cutSequence.toNat ∧ field w.bytes 7 1 = w.lastCutFields.1
      ∧ field w.bytes 8 4 = w.lastCutFields.2.toNat ∧ field w.bytes 12 1 = (if w.blackout then 1 else 0)
      ∧ field w.bytes 13 1 = (checkSum w.body).toNat := by
  have hkind : fits1 w.kind.code = true := fits1_iff.2 (by have := w.kind.code_lt; omega)
  have hgroup : fits1 w.groupByte = true := fits1_iff.2 (by have := w.groupByte_lt; omega)
  have hframe : ∀ f : Frame, fits4 f.toNat = true := fun f => fits4_iff.2 f.isLt
  have hseq : fits1 w.cutSequence.toNat = true := fits1_iff.2 (by omega)
  have hlast : fits1 w.lastCutFields.1 = true := fits1_iff.2 (by unfold SyncWord.lastCutFields; split <;> omega)
  have hflag : fits1 (if w.blackout then 1 else 0) = true := by cases w.blackout <;> rfl
  have hcheck : field w.bytes 13 1 = (checkSum w.body).toNat := by
    rw [field_one (by simp [SyncWord.bytes, w.body_length])]
    simp [SyncWord.bytes, w.body_length]
  refine ⟨?_, ?_, ?_, ?_, ?_, ?_, ?_, hcheck⟩ <;>
    simp [SyncWord.bytes, SyncWord.body_eq, field_skip, field_byte, field_long, *]

/-- Settles O5: every field is read back, and the bytes that are not meaningful are read as whatever they hold. -/
theorem syncWordReadsBack : Obligations.SyncWordReadsBack := by
  unfold Obligations.SyncWordReadsBack
  intro w
  have hlen : w.bytes.length = 14 := by simp [SyncWord.bytes, w.body_length]
  refine ⟨hlen, ?_⟩
  obtain ⟨hkind, hgroup, hframe, hseq, hlast, hlastFrame, hflag, hcheck⟩ := w.fields_read
  have htake : w.bytes.take 13 = w.body := List.take_left' w.body_length
  have hseqLt : w.cutSequence.toNat < 16 := w.cutSequence.isLt
  have hlastOk : ¬ (8 ≤ w.lastCutFields.1 ∧ w.lastCutFields.1 ≤ 254) := by
    unfold SyncWord.lastCutFields; split <;> omega
  have hflagOk : ¬ (1 < if w.blackout then 1 else 0) := by split <;> omega
  have hrange : ¬ (3 < w.kind.code ∨ 7 < w.groupByte ∨ 15 < w.cutSequence.toNat
      ∨ (8 ≤ w.lastCutFields.1 ∧ w.lastCutFields.1 ≤ 254) ∨ 1 < if w.blackout then 1 else 0) := by
    have := w.kind.code_lt
    have := w.groupByte_lt
    simp only [not_or]
    exact ⟨by omega, by omega, by omega, hlastOk, hflagOk⟩
  have hlastCut : (if w.lastCutFields.1 = 255 then none
      else some (Fin.ofNat 8 w.lastCutFields.1, w.lastCutFields.2)) = w.lastCut := by
    unfold SyncWord.lastCutFields
    split
    · next h => rw [h]; rfl
    · next g f h =>
      have : g.val ≠ 255 := by omega
      simp [h, this]
  unfold parseSyncWord
  simp only [hlen, hkind, hgroup, hframe, hseq, hlast, hlastFrame, hflag, hcheck, htake, ne_eq, not_true_eq_false, if_false,
    gt_iff_lt, if_neg hrange, wordKindOf_read, BitVec.ofNat_toNat, BitVec.setWidth_eq, hlastCut]
  obtain ⟨kind, frame, seq, last, blackout⟩ := w
  cases blackout <;> rfl

/-- Settles O3: the payload reads back, so its length is one that the code takes. -/
theorem payloadReadsBack : Obligations.PayloadReadsBack := by
  unfold Obligations.PayloadReadsBack
  intro c h
  have hread := parseCommand_payload h
  obtain ⟨hlo, hhi⟩ := c.code_range
  exact ⟨hread, by rw [← parseCommand_isSome hlo hhi, hread]; rfl⟩

/-! ### Command frames -/

theorem HostCmd.payload_length_of_wellFormed {c : HostCmd} (h : c.wellFormed = true) : c.payload.length ≤ 4101 := by
  refine Machine.HostCmd.payload_length_le ?_
  rintro id off chunk rfl
  simp only [HostCmd.wellFormed, Bool.and_eq_true, decide_eq_true_eq] at h
  exact h.2

/-- A command's frame is split into the header it was written with. -/
theorem splitFrame_encodeFrame {unit : Nat} {c : HostCmd} (hu : unit < 256) (hl : c.payload.length ≤ 4101) :
    splitFrame (encodeFrame unit c) = some ⟨unit, c.code, c.payload.length, c.payload⟩ := by
  have hc := c.code_range
  simp [encodeFrame, splitFrame, leBytes]
  omega

theorem knownCode_iff {code : Nat} : knownCode code = true ↔ 1 ≤ code ∧ code ≤ 32 := by simp [knownCode]

end Sys2Proof

namespace Sys2Proof.Machine

/-! ### A frame on the link -/

@[simp] theorem exec_commandFrame_cons (unit code l0 l1 : Byte) (rest : List Byte) (s : State) :
    exec (.commandFrame (unit :: code :: l0 :: l1 :: rest)) s
      = .next ((s.hears (unit :: code :: l0 :: l1 :: rest)).receive (unit :: code :: l0 :: l1 :: rest) unit.toNat code.toNat
          (frameRefusal ⟨unit.toNat, code.toNat, l0.toNat + 256 * l1.toNat, rest⟩)
          (frameOp ⟨unit.toNat, code.toNat, l0.toNat + 256 * l1.toNat, rest⟩)) := rfl

/-- The header tests find on a command's own frame what they find on the command. -/
theorem frameRefusal_encoded {unit : Nat} {c : HostCmd} (h : c.wellFormed = true) :
    frameRefusal ⟨unit, c.code, c.payload.length, c.payload⟩ = hostRefusal unit c := by
  have hl : ¬ 4101 < c.payload.length := Nat.not_lt.2 (HostCmd.payload_length_of_wellFormed h)
  have hk : knownCode c.code = true := knownCode_iff.2 c.code_range
  simp [frameRefusal, hostRefusal, hl, hk, parseCommand_payload h]

/-- Settles O4: the frame is split into the command's own header and payload, which read back as the command. -/
theorem frameIsItsCommand : Obligations.FrameIsItsCommand := by
  unfold Obligations.FrameIsItsCommand
  intro unit c s hu h
  have hop : frameOp ⟨unit, c.code, c.payload.length, c.payload⟩ = commandOp c := by
    simp only [frameOp, parseCommand_payload h]
  have htake : (s.hears (encodeFrame unit c)).takeTransfer (encodeFrame unit c)
      = (s.hears (encodeFrame unit c)).hostCommand unit c (commandOp c) := by
    rw [State.takeTransfer, splitFrame_encodeFrame hu (HostCmd.payload_length_of_wellFormed h)]
    simp only [hop, frameRefusal_encoded h]
    rfl
  rw [exec_toInstr, ← htake]
  rfl

/-! ### What is made of a frame (R177 to R179) -/

/-- A frame of fewer than four bytes has no header. -/
theorem splitFrame_short {bytes : List Byte} (h : bytes.length < 4) : splitFrame bytes = none := by
  match bytes, h with
  | [], _ => rfl
  | [_], _ => rfl
  | [_, _], _ => rfl
  | [_, _, _], _ => rfl

section
variable {s : State} {bytes : List Byte} {unit code : Nat} {refusal : Option Status} {op : CommandOp}

theorem State.receive_starting (h : s.phase = .starting) : s.receive bytes unit code refusal op = s := if_pos h

theorem State.forThisPart_iff : s.forThisPart unit = true ↔ unit = s.clc.straps.unit.val ∨ unit = 15 := by
  simp only [State.forThisPart, Bool.or_eq_true, decide_eq_true_eq]
  exact Iff.rfl

theorem State.receive_elsewhere (hu : unit ≠ s.clc.straps.unit.val) (hb : unit ≠ 15) :
    s.receive bytes unit code refusal op = s := by
  have hunit : s.forThisPart unit = false := by
    rw [Bool.eq_false_iff, ne_eq, State.forThisPart_iff]
    exact not_or_intro hu hb
  simp [State.receive, hunit]

theorem State.receive_overrun {e : Executing} (hp : s.phase ≠ .starting) (hu : unit = s.clc.straps.unit.val ∨ unit = 15)
    (he : s.clc.executing = some e) :
    s.receive bytes unit code refusal op = { s with
      clc := { s.clc with executing := some { e with overrun := true } }
      evb := s.evb.record (.linkOverrun unit code) } := by
  have hover : s.overrunBy unit code = { s with
      clc := { s.clc with executing := some { e with overrun := true } }
      evb := s.evb.record (.linkOverrun unit code) } := by
    simp [State.overrunBy, State.report, he, hp, Executing.marked]
  simp [State.receive, hp, State.forThisPart_iff.2 hu, he, hover]

/-- A frame that tests 1 to 5 of R178 refuse is answered with their first failing one. -/
theorem State.receive_refused {status : Status} (hp : s.phase ≠ .starting) (hu : unit = s.clc.straps.unit.val ∨ unit = 15)
    (he : s.clc.executing = none)
    (hr : refusal = some status ∨ (refusal = none ∧ phaseRefuses s.phase code = true ∧ status = .wrongPhase)) :
    s.receive bytes unit code refusal op = { s with clc := s.answered unit code bytes status .empty } := by
  have hanswer : (s.takeFrame bytes).deliver code (decide (unit = broadcastUnit)) false status .empty
      = { s with clc := s.answered unit code bytes status .empty } := by
    by_cases hb : unit = 15 <;> simp [State.deliver, State.takeFrame, State.answered, broadcastUnit, hb]
  rcases hr with rfl | ⟨rfl, hphase, rfl⟩
  · simp [State.receive, hp, State.forThisPart_iff.2 hu, he, hanswer]
  · simp [State.receive, hp, State.forThisPart_iff.2 hu, he, hphase, hanswer]

end

theorem wrongAddressing_iff {unit code : Nat} :
    wrongAddressing unit code = true
      ↔ (unit = 15 ∧ code ∈ [1, 2, 16, 17, 21, 22, 26, 30]) ∨ (unit ≠ 15 ∧ code = 32) := by
  have hb : broadcastUnit = 15 := rfl
  simp [wrongAddressing, hb, dataReturning]

theorem phaseRefuses_iff {p : Phase} (h : p ≠ .starting) (code : Nat) :
    phaseRefuses p code = true ↔ (p = .config ∧ code = 7) ∨ (p = .running ∧ code ∈ [3, 4, 5, 6]) := by
  cases p with
  | starting => exact absurd rfl h
  | config => simp [phaseRefuses]
  | running => simp [phaseRefuses, or_assoc]

/-- The five tests of R178 are the header's four and the phase test. -/
theorem State.frameTests_eq {s : State} (hp : s.phase ≠ .starting) (h : FrameHeader) :
    s.frameTests h.unit h.code h.length h.rest.length
      = (frameRefusal h).or (if phaseRefuses s.phase h.code then some .wrongPhase else none) := by
  have hlength : (4101 < h.length ∨ h.rest.length ≠ h.length) = (h.length > 4101 ∨ h.rest.length ≠ h.length) := rfl
  have hknown : (h.code < 1 ∨ 32 < h.code) ↔ knownCode h.code = false := by
    rw [Bool.eq_false_iff, ne_eq, knownCode_iff]; omega
  unfold State.frameTests frameRefusal
  simp only [← wrongAddressing_iff, ← phaseRefuses_iff hp, hlength, hknown]
  by_cases htest1 : h.length > 4101 ∨ h.rest.length ≠ h.length
  · simp only [if_pos htest1, Option.some_or]
  · simp only [if_neg htest1]
    by_cases htest2 : knownCode h.code = false
    · simp only [if_pos htest2, Option.some_or]
    · obtain ⟨hlo, hhi⟩ := knownCode_iff.1 (Bool.not_eq_false _ ▸ htest2)
      have hparse : (lengthTaken h.code h.rest.length = false) ↔ parseCommand h.code h.rest = none := by
        rw [← parseCommand_isSome hlo hhi]; simp
      simp only [if_neg htest2, hparse]
      by_cases htest3 : wrongAddressing h.unit h.code = true
      · simp only [if_pos htest3, Option.some_or]
      · simp only [if_neg htest3]
        by_cases htest4 : parseCommand h.code h.rest = none
        · simp only [if_pos htest4, Option.some_or]
        · simp only [if_neg htest4, Option.none_or]

/-- The frame of a POLL passes the five tests of R178. -/
theorem State.frameTests_poll {s : State} : s.frameTests 15 32 0 0 = none := by
  simp [State.frameTests, lengthTaken]

/-- Settles O7: each clause is one outcome of `State.receive`; the frame of a POLL alone is heard, and no test refuses it. -/
theorem framesReceived : Obligations.FramesReceived := by
  unfold Obligations.FramesReceived
  refine ⟨⟨fun bytes s h => ?short, fun bytes s h => ?starting, fun bytes s => rfl,
    fun unit code l0 l1 rest s hu hb => ?elsewhere, fun unit code l0 l1 rest s e hp hu he => ?overrun⟩,
    fun unit code l0 l1 rest s status hp he hu htest => ?refused⟩
  case short =>
    have hpoll : bytes ≠ pollFrame := by rintro rfl; exact absurd h (by decide)
    show Host.Outcome.next ((s.hears bytes).takeTransfer bytes) = _
    rw [State.takeTransfer, splitFrame_short h, State.hears_other s hpoll]
  case starting =>
    have hp : (s.hears bytes).phase = .starting := by rw [State.hears_phase, h]
    show Host.Outcome.next ((s.hears bytes).takeTransfer bytes) = _
    unfold State.takeTransfer
    split
    · rfl
    · rw [State.receive_starting hp]
  case elsewhere =>
    have hpoll : unit :: code :: l0 :: l1 :: rest ≠ pollFrame := by
      intro heq
      obtain ⟨rfl, -⟩ := List.cons.inj heq
      exact hb rfl
    rw [exec_commandFrame_cons, State.hears_other s hpoll, State.receive_elsewhere hu hb]
  case overrun =>
    rw [exec_commandFrame_cons, State.receive_overrun (e := e) (by simpa using hp) (by simpa using hu) (by simpa using he)]
    simp only [State.hears_clc, State.hears_evb]
  case refused =>
    have hpoll : unit :: code :: l0 :: l1 :: rest ≠ pollFrame := by
      intro heq
      simp only [pollFrame, List.cons.injEq] at heq
      obtain ⟨rfl, rfl, rfl, rfl, rfl⟩ := heq
      have hnone : s.frameTests (15 : Byte).toNat (32 : Byte).toNat ((0 : Byte).toNat + 256 * (0 : Byte).toNat)
          ([] : List Byte).length = none := State.frameTests_poll
      rw [hnone] at htest
      cases htest
    rw [exec_commandFrame_cons, State.hears_other s hpoll]
    have hall := State.frameTests_eq hp ⟨unit.toNat, code.toNat, l0.toNat + 256 * l1.toNat, rest⟩
    rw [htest, eq_comm, Option.or_eq_some_iff] at hall
    refine congrArg Host.Outcome.next (State.receive_refused hp hu he (hall.imp_right ?_))
    rintro ⟨hnone, hphase⟩
    split at hphase
    · next hr => exact ⟨hnone, hr, (Option.some.inj hphase).symm⟩
    · cases hphase

/-! ### POLL and the grant (R191) -/

theorem exec_poll (s : State) :
    exec (.poll 15) s = .next (State.hostCommand 15 .poll opPoll { s with
      pins := s.pins.ginAfterPoll (Config.goutBeforeStays s.freeCount)
      freeCount := s.freeCount + 1 }) := by
  have hexec : exec (.poll 15) s = .next ((s.hears (encodeFrame 15 .poll)).hostCommand 15 .poll opPoll) := rfl
  rw [hexec, encodeFrame_poll, State.hears_pollFrame]

theorem exec_grantArrival (s : State) :
    exec .grantArrival s = .next { s with
      pins := s.pins.ginRisen
      clc := match s.clc.grant with
        | .awaiting => s.takeGrant
        | .passing => s.clc
        | .holding => s.clc } := rfl

theorem State.wantsAttention_eq_false {s : State}
    (h : ∀ i, (s.evb.flags.get i).isSome = true → s.evb.enables.get i = false) : s.wantsAttention = false := by
  rw [Bool.eq_false_iff, ne_eq, State.wantsAttention_iff]
  rintro ⟨i, hset, hon⟩
  rw [h i hset] at hon
  cases hon

/-- Settles O9: POLL by the outcome of its frame, the grant by the state that finds it, GIN and GOUT by their definitions. -/
theorem pollFindsAttention : Obligations.PollFindsAttention := by
  unfold Obligations.PollFindsAttention
  refine ⟨fun s ht => ?taken, fun s hp => ?starting, fun s e hp he => ?overrun, fun s hg hwant => ?attends,
    fun s hg hnone => ?passes, fun s hg => ?other, fun s => ⟨fun hg => ?_, fun hg => ?_⟩,
    fun p stays hg => ⟨?_, ?_, ?_⟩, fun p stays asserted hg => ⟨?_, ?_, ?_⟩⟩
  case taken =>
    rw [exec_poll]
    exact congrArg Host.Outcome.next (State.hostCommand_replied (t := { s with
      pins := s.pins.ginAfterPoll (Config.goutBeforeStays s.freeCount)
      freeCount := s.freeCount + 1
      clc := { s.clc with grant := .awaiting } }) ht (by simp [HostCmd.payload]) rfl)
  case starting => rw [exec_poll, State.hostCommand_starting (by exact hp)]
  case overrun =>
    rw [exec_poll]
    exact congrArg Host.Outcome.next (State.receive_overrun (s := { s with
      pins := s.pins.ginAfterPoll (Config.goutBeforeStays s.freeCount)
      freeCount := s.freeCount + 1 }) hp (.inr rfl) he)
  case attends =>
    have hw : s.wantsAttention = true := State.wantsAttention_iff.2 hwant
    rw [exec_grantArrival, hg]
    simp only [State.takeGrant, if_pos hw]
    rfl
  case passes =>
    have hw : s.wantsAttention = false := State.wantsAttention_eq_false hnone
    rw [exec_grantArrival, hg]
    simp only [State.takeGrant, hw]
    rfl
  case other =>
    rw [exec_grantArrival]
    cases hgrant : s.clc.grant with
    | awaiting => exact absurd hgrant hg
    | passing => rfl
    | holding => rfl
  · simp only [State.goutAsserted, hg]
  · unfold State.goutAsserted
    cases hgrant : s.clc.grant with
    | passing => exact absurd hgrant hg
    | awaiting => rfl
    | holding => rfl
  all_goals simp only [Pins.ginReads, Pins.ginRisen, Pins.ginAfterPoll, hg]

end Sys2Proof.Machine

/-! SUPPORT. The host commands on surfaces, placements, groups, tiles and pacing: what each answers at the test of its own that decides,
and the statements UploadTaken, RecordsReported, ValuesTested, PlacementStaged, PlacementAmended, PlacementRetired, GroupCommitted,
GroupCancelled, PictureSettings, PacingCodeActs. -/

namespace Sys2Proof.Machine

/-! ### UPLOAD (R26, R27) -/

/-- A taken command whose result comes later leaves what its own effect leaves, and is executing (R179). -/
theorem exec_begins {s t : State} {unit : Nat} {c : HostCmd} {job : Job} (ht : s.Takes unit c.code)
    (hl : c.payload.length ≤ 4101) (hpoll : c.code % 256 ≠ 32)
    (hop : ∀ bytes, commandOp c (s.takeFrame bytes) = (t.takeFrame bytes, .begins job)) :
    exec (c.toInstr unit) s = .next { t with clc := t.nowExecuting unit c.code (encodeFrame unit c) job } := by
  rw [exec_toInstr_of_ne_poll unit hpoll, State.hostCommand_taken ht hl, hop]
  rfl

theorem upload_payload_length {id off : Nat} {chunk : List Byte} (h : chunk.length ≤ 4096) :
    (HostCmd.upload id off chunk).payload.length ≤ 4101 :=
  HostCmd.payload_length_le fun _ _ _ he => by cases he; exact h

theorem uploadLength_iff {chunk : List Byte} : within 1 4096 chunk.length = true ↔ chunk ≠ [] ∧ chunk.length ≤ 4096 := by
  simp [within, Nat.one_le_iff_ne_zero]

/-- Out of STARTING the controller acts by the grant rule at once (R140, R148). -/
theorem State.grant_of_ne_starting {s : State} (h : s.phase ≠ .starting) :
    s.grant = { s with fsc := s.fsc.granted s.now } := by
  rw [State.grant, if_neg h]

section
variable {s : State} {id offset : Nat} {i : SurfaceId} {chunk : List Byte}

theorem opUpload_misfit (h : 256 ≤ id ∨ chunk = []) : opUpload id offset chunk s = s.answer .badValue .empty := by
  rcases h with hid | rfl
  · simp only [opUpload, recordId_eq_none hid]
  · have hlen : within 1 4096 ([] : List Byte).length = false := rfl
    simp only [opUpload, hlen]
    cases recordId id 256 <;> rfl

theorem opUpload_passed (hne : chunk ≠ []) (hl : chunk.length ≤ 4096) :
    opUpload i.val offset chunk s = match s.surface i with
      | .empty => s.answer .notLoading (.loadState .empty)
      | .ready _ => s.answer .notLoading (.loadState .ready)
      | .loading d loaded =>
        if offset = loaded then
          (s.handOverUpload (uploadOf d loaded chunk), .begins (.upload i (uploadOf d loaded chunk).data.length))
        else s.answer .outOfOrder (.loadedSoFar loaded) := by
  simp only [opUpload, recordId_val, uploadLength_iff.2 ⟨hne, hl⟩] <;> rfl

end

/-- Settles O20: the length of the frame is tested first, then the command's own tests in order. -/
theorem uploadTaken : Obligations.UploadTaken := by
  unfold Obligations.UploadTaken
  refine ⟨fun s unit id offset chunk ht hl hbad => ?misfit, fun s unit id offset chunk ht hl => ?long,
    fun s unit i offset chunk ht hne hl => ⟨fun he => ?empty, fun d hd => ?ready, fun d loaded hd hoff => ?outOfOrder,
      fun d loaded hd hoff => ?begun⟩⟩
  case misfit =>
    exact exec_replied (c := .upload id offset chunk) ht (hl := upload_payload_length hl)
      (hop := fun bytes => opUpload_misfit hbad)
  case long =>
    obtain ⟨hp, he, hu, -⟩ := ht
    have hrefuse : hostRefusal unit (.upload id offset chunk) = some .badLength := by
      simp [hostRefusal, HostCmd.payload]; omega
    exact congrArg Host.Outcome.next (State.receive_refused hp hu he (.inl hrefuse))
  case empty =>
    exact exec_replied (c := .upload i.val offset chunk) ht (hl := upload_payload_length hl) (hop := fun bytes =>
      (opUpload_passed hne hl).trans (by rw [show (s.takeFrame bytes).surface i = .empty from he]))
  case ready =>
    exact exec_replied (c := .upload i.val offset chunk) ht (hl := upload_payload_length hl) (hop := fun bytes =>
      (opUpload_passed hne hl).trans (by rw [show (s.takeFrame bytes).surface i = .ready d from hd]))
  case outOfOrder =>
    exact exec_replied (c := .upload i.val offset chunk) ht (hl := upload_payload_length hl) (hop := fun bytes =>
      (opUpload_passed hne hl).trans (by
        rw [show (s.takeFrame bytes).surface i = .loading d loaded from hd]; exact if_neg hoff))
  case begun =>
    have hp : s.phase ≠ .starting := ht.1
    have hlen : (uploadOf d loaded chunk).data.length = min chunk.length (d.totalBytes - loaded) := by
      simp [uploadOf, Nat.min_comm]
    rw [← hlen]
    refine exec_begins (c := .upload i.val offset chunk) (t := { s with fsc := Fsc.granted s.now { s.fsc with
      upload := some (uploadOf d loaded chunk) } }) ht (upload_payload_length hl) (by simp [HostCmd.code]) fun bytes => ?_
    refine (opUpload_passed hne hl).trans ?_
    rw [show (s.takeFrame bytes).surface i = .loading d loaded from hd]
    simp only [if_pos hoff, State.handOverUpload]
    rw [State.grant_of_ne_starting (by exact hp)]
    rfl

/-! ### SURFACE_INFO, TILE_INFO, GROUP_INFO (R34, R164, R89) -/

theorem SurfaceRec.report_eq (r : SurfaceRec) : r.report = match r.state with
    | .empty => ⟨.empty, none, none, none, none, none, r.refs⟩
    | .loading d loaded => ⟨.loading, some d, some (d.height / d.cells), some ((d.totalBytes + 4095) / 4096),
        some d.totalBytes, some loaded, r.refs⟩
    | .ready d => ⟨.ready, some d, some (d.height / d.cells), some ((d.totalBytes + 4095) / 4096),
        some d.totalBytes, some d.totalBytes, r.refs⟩ := by
  obtain ⟨state, refs⟩ := r
  cases state <;> rfl

theorem PortState.rail_eq (p : PortState) : p.rail = decide (p.name ≠ .off ∧ p.name ≠ .fault) := by
  cases p <;> rfl

/-- The records of one state that a group holds. -/
theorem State.countRecords_eq {s : State} {g : GroupId} {name : PlacementName} {test : Placement → Bool}
    (h : ∀ r, (r.group = some g && r.name = name) = test r) : s.countRecords g name = (s.ptab.rows.filter test).length := by
  have hfun : (fun r : Placement => (decide (r.group = some g) && decide (r.name = name))) = test := funext h
  rw [State.countRecords, hfun, List.countP_eq_length_filter]

theorem State.mem_neededSurfaces {s : State} {g : GroupId} {i : SurfaceId} :
    i ∈ s.neededSurfaces g ↔ ∃ r ∈ s.ptab.rows, (∃ v, r = .staged g v ∧ v.surface = i)
      ∨ ∃ v a b new restart, r = .live g v a b (some (.replace new restart)) ∧ new.surface = i := by
  simp only [State.neededSurfaces, List.mem_flatMap]
  refine exists_congr fun r => and_congr_right fun _ => ?_
  cases r with
  | free => simp
  | fading h v a b f => simp
  | staged h v =>
    by_cases hg : h = g
    · subst hg; simp [eq_comm]
    · simp [hg]
  | live h v a b p =>
    by_cases hg : h = g
    · subst hg
      cases p with
      | none => simp [Pending.surfaces]
      | some p => cases p <;> simp [Pending.surfaces, eq_comm]
    · simp [hg]

theorem SurfaceState.isReady_iff {st : SurfaceState} : st.isReady = true ↔ ∃ d, st = .ready d := by
  cases st <;> simp [SurfaceState.isReady]

theorem State.mem_surfacesNotReady {s : State} {g : GroupId} {i : SurfaceId} :
    i ∈ s.surfacesNotReady g ↔ (¬ ∃ d, s.surface i = .ready d) ∧ i ∈ s.neededSurfaces g := by
  simp only [State.surfacesNotReady, List.mem_dedup, List.mem_filter, Bool.not_eq_true', Bool.eq_false_iff, ne_eq,
    SurfaceState.isReady_iff, and_comm]

/-- Settles O21: each answer is the record's report, field by field. -/
theorem recordsReported : Obligations.RecordsReported := by
  unfold Obligations.RecordsReported
  refine ⟨fun s unit id ht hid => ?noSurface, fun s unit i ht => ?surface, fun s unit tile ht hid => ?noTile,
    fun s unit t ht => ?tile, fun s unit group ht hid => ?noGroup, fun s unit g ht => ⟨s.groupReport g, ?group, rfl, rfl, rfl,
      ?_, rfl, rfl, rfl, rfl, fun hm => ⟨?_, ?_, fun target htarget => ?_, fun hnone => ?_⟩, fun hs => ⟨?_, ?_, ?_⟩,
      ?_, ?_, ?_, ?_, ?_, s.surfacesNotReady g, List.nodup_dedup _, rfl, fun i => ?_⟩⟩
  case noSurface =>
    exact exec_replied (c := .surfaceInfo id) ht (hop := fun bytes => by
      simp only [commandOp, opSurfaceInfo, recordId_eq_none hid])
  case surface =>
    have hreport := SurfaceRec.report_eq (s.sdir.get i)
    refine (exec_replied (c := .surfaceInfo i.val) (t := s) (p := .surface (s.sdir.get i).report) ht (hop := fun bytes => by
      simp only [commandOp, opSurfaceInfo, recordId_val]; rfl)).trans ?_
    rw [hreport]
    rfl
  case noTile =>
    exact exec_replied (c := .tileInfo tile) ht (hop := fun bytes => by
      simp only [commandOp, opTileInfo, recordId_eq_none hid])
  case tile =>
    rw [← PortState.rail_eq]
    exact exec_replied (c := .tileInfo t.val) (t := s) ht (hop := fun bytes => by
      simp only [commandOp, opTileInfo, recordId_val, State.tileReport, PortState.attempt, PortState.attemptFrames,
        PortState.warmUpLeft, PortState.drainStage, PortState.restartAfterDrain, Cvb.isComplete]
      cases hprep : s.cvb.prep <;> cases hport : (s.ports.get t).state <;> simp [hprep, hport, State.answer])
  case noGroup =>
    exact exec_replied (c := .groupInfo group) ht (hop := fun bytes => by
      simp only [commandOp, opGroupInfo, recordId_eq_none hid])
  case group =>
    exact exec_replied (c := .groupInfo g.val) ht (hop := fun bytes => by
      simp only [commandOp, opGroupInfo, recordId_val]; rfl)
  · rfl
  · simp [State.groupReport, hm]
  · simp [State.groupReport, hm]
  · simp only [State.groupReport, if_pos hm, State.framesRemaining]
    split
    · next f harmed hframe =>
      obtain rfl := Trigger.frame.inj (htarget.symm.trans hframe)
      exact (if_pos harmed).symm
    · next hother =>
      have hidle : ¬ s.groupState g = .armed := fun harmed => hother target harmed htarget
      exact (if_neg hidle).symm
  · simp only [State.groupReport, State.framesRemaining, if_pos hm]
    split
    · next h => exact absurd h (hnone _)
    · rfl
  · simp [State.groupReport, hs]
  · simp [State.groupReport, hs]
  · simp [State.groupReport, hs]
  · exact State.countRecords_eq fun r => by cases r <;> simp [Placement.group, Placement.name]
  · exact State.countRecords_eq fun r => by cases r <;> simp [Placement.group, Placement.name]
  · exact State.countRecords_eq fun r => by cases r <;> simp [Placement.group, Placement.name]
  · rw [← List.countP_eq_length_filter]
    refine List.countP_congr fun r _ => ?_
    rcases r with _ | _ | ⟨_, _, _, _, _ | _ | _⟩ | _ <;> simp [Pending.kind]
  · rw [← List.countP_eq_length_filter]
    refine List.countP_congr fun r _ => ?_
    rcases r with _ | _ | ⟨_, _, _, _, _ | _ | _⟩ | _ <;> simp [Pending.kind]
  · rw [State.mem_surfacesNotReady, State.mem_neededSurfaces]

/-! ### The five tests of a set of values (R45) -/

theorem CellMode.ofCode_of_le {n : Nat} (h : n ≤ 2) :
    ∃ m, CellMode.ofCode n = some m ∧ (n, m) ∈ [(0, CellMode.loop), (1, .onceHold), (2, .onceRetire)] := by
  match n, h with
  | 0, _ => exact ⟨.loop, rfl, by simp⟩
  | 1, _ => exact ⟨.onceHold, rfl, by simp⟩
  | 2, _ => exact ⟨.onceRetire, rfl, by simp⟩

theorem CellMode.ofCode_eq_none {n : Nat} (h : 2 < n) : CellMode.ofCode n = none := by
  match n, h with
  | n + 3, _ => rfl

theorem valuesFit_iff {v : RawValues} : valuesFit v ↔ valuesInRange v = true ∧ v.cellMode ≤ 2 := by
  simp only [valuesFit, valuesInRange, within, Bool.and_eq_true, decide_eq_true_eq, Nat.zero_le, true_and]
  tauto

theorem rateTaken_eq (n : Nat) : rateTaken n = max n 1 := by
  unfold rateTaken; split <;> omega

theorem endAgeOf_not_retire {m : CellMode} (h : m ≠ .onceRetire) (run cells first rate : Nat) :
    endAgeOf run m cells first rate = if run = 0 then none else some run := by
  cases m with
  | onceRetire => exact absurd rfl h
  | loop => rfl
  | onceHold => rfl

theorem endAgeOf_retire (run cells first rate : Nat) : endAgeOf run .onceRetire cells first rate
    = if run = 0 then some ((cells - first) * rate) else some (min run ((cells - first) * rate)) := by
  simp only [endAgeOf]; split <;> rfl

section
variable {s : State} {v : RawValues} {i : SurfaceId} {d : Desc}

theorem State.checkValues_misfit (h : ¬ valuesFit v) : s.checkValues v = .error .badValue := by
  unfold State.checkValues
  split
  · next hr hi hm =>
    refine absurd (valuesFit_iff.2 ⟨hr, Nat.not_lt.1 fun hlt => ?_⟩) h
    rw [CellMode.ofCode_eq_none hlt] at hm
    cases hm
  · rfl

/-- Past test 1 of R45 the surface named decides. -/
theorem State.checkValues_eq {m : CellMode} (h : valuesFit v) (hi : v.surface = i.val) (hm : CellMode.ofCode v.cellMode = some m) :
    s.checkValues v = match (s.surface i).desc with
      | none => .error .noSuch
      | some d =>
        if v.sx + v.sw > d.width || v.sy + v.sh > d.cellHeight then .error .badValue
        else if v.firstCell ≥ d.cells then .error .badValue
        else if within 4096 1048576 (scaleStep v.sw v.dw) && within 4096 1048576 (scaleStep v.sh v.dh) then
          .ok (Values.taken v i m d.cells)
        else .error .scaleRange := by
  have hid : recordId v.surface 256 = some i := by rw [hi, recordId_val]
  generalize hvalues : Values.taken v i m = taken
  unfold State.checkValues
  split
  · next hr hi' hm' =>
    cases hid.symm.trans hi'
    cases hm.symm.trans hm'
    rw [hvalues] <;> cases (s.surface i).desc <;> rfl
  · next hno => exact absurd hm (hno _ _ (valuesFit_iff.1 h).1 hid)

end

/-- Settles O22: test 1 is the range of every field, and past it each test of R45 reads the surface named. -/
theorem valuesTested : Obligations.ValuesTested := by
  unfold Obligations.ValuesTested
  refine fun s v => ⟨State.checkValues_misfit, fun i hfit hi => ?_⟩
  obtain ⟨m, hm, hmem⟩ := CellMode.ofCode_of_le (valuesFit_iff.1 hfit).2
  have hcheck := State.checkValues_eq (s := s) hfit hi hm
  refine ⟨fun he => ?noSurface, fun d hd => ?surface⟩
  case noSurface => rw [hcheck, he]; rfl
  case surface =>
    intro stepX stepY misfit scaled
    simp only [hd] at hcheck
    have hmisfit : misfit ↔ (v.sx + v.sw > d.width || v.sy + v.sh > d.cellHeight) = true ∨ v.firstCell ≥ d.cells := by
      simp only [Bool.or_eq_true, decide_eq_true_eq, or_assoc]
      exact Iff.rfl
    have hscaled : scaled ↔ (within 4096 1048576 (scaleStep v.sw v.dw) && within 4096 1048576 (scaleStep v.sh v.dh)) = true := by
      simp only [within, Bool.and_eq_true, decide_eq_true_eq, and_assoc]
      exact Iff.rfl
    rw [hmisfit, hscaled]
    refine ⟨fun hbad => ?_, fun hok hbad => ?_, fun hok hgood => ⟨Values.taken v i m d.cells, ?_, ?_, hmem, fun hne => ?_, fun he => ?_⟩⟩
    · rw [hcheck]
      rcases hbad with hbad | hbad
      · rw [if_pos hbad]
      · simp [hbad]
    · obtain ⟨h1, h2⟩ := not_or.1 hok
      rw [hcheck, if_neg h1, if_neg h2, if_neg hbad]
    · obtain ⟨h1, h2⟩ := not_or.1 hok
      rw [hcheck, if_neg h1, if_neg h2, if_pos hgood]
    · simp only [Values.taken, rateTaken_eq, Nat.min_comm 256]
      rfl
    · exact endAgeOf_not_retire hne _ _ _ _
    · have he' : m = .onceRetire := he
      simp only [Values.taken, he', rateTaken_eq, endAgeOf_retire]

/-! ### PLACE, AMEND and RETIRE (R46 to R49) -/

theorem State.takeFrame_checkValues (s : State) (bytes : List Byte) (v : RawValues) :
    (s.takeFrame bytes).checkValues v = s.checkValues v := by
  unfold State.checkValues
  split
  · next i m hr hi hm =>
    have hsurface : (s.takeFrame bytes).surface i = s.surface i := rfl
    rw [hsurface]
  · rfl

theorem markOf_of_le {n : Nat} (h : n ≤ 1) : markOf n = some (decide (n = 1)) := by
  match n, h with
  | 0, _ => rfl
  | 1, _ => rfl

theorem markOf_eq_none {n : Nat} (h : 1 < n) : markOf n = none := by
  match n, h with
  | n + 2, _ => rfl

theorem State.locks_eq_false {s : State} {g : GroupId} (h : ¬ (s.groupState g).Locks) : s.locks g = false :=
  Bool.eq_false_iff.2 (mt State.locks_iff.1 h)

/-- Settles O23: the record is tested, then the group's lock, then the values. -/
theorem placementStaged : Obligations.PlacementStaged := by
  unfold Obligations.PlacementStaged
  refine ⟨fun s unit id group v ht hbad => ?misfit, fun s unit i g v ht => ⟨fun h hh => ?inUse, fun hfree hlock => ?locked,
    fun status hfree hlock hv => ?refused, fun w hfree hlock hv => ?staged⟩⟩
  case misfit =>
    refine exec_replied (c := .place id group v) ht (hop := fun bytes => ?_)
    rcases hbad with hid | hg
    · simp only [commandOp, opPlace, recordId_eq_none hid]
    · simp only [commandOp, opPlace, recordId_eq_none hg]
      cases recordId id 128 <;> rfl
  case inUse =>
    exact exec_replied (c := .place i.val g.val v) ht (hop := fun bytes => by
      simp only [commandOp, opPlace, recordId_val, State.takeFrame_ptab, hh])
  case locked =>
    exact exec_replied (c := .place i.val g.val v) ht (hop := fun bytes => by
      simp only [commandOp, opPlace, recordId_val, State.takeFrame_ptab, hfree, Placement.group]
      exact if_pos (State.locks_iff.2 hlock))
  case refused =>
    exact exec_replied (c := .place i.val g.val v) ht (hop := fun bytes => by
      simp only [commandOp, opPlace, recordId_val, State.takeFrame_ptab, hfree, Placement.group,
        State.takeFrame_checkValues, hv]
      exact if_neg (mt State.locks_iff.1 hlock))
  case staged =>
    refine exec_replied (c := .place i.val g.val v) (t := { s with
      ptab := s.ptab.set i (.staged g w)
      sdir := s.sdir.modify w.surface fun r => { r with refs := r.refs + 1 } }) ht (hop := fun bytes => ?_)
    simp only [commandOp, opPlace, recordId_val, State.takeFrame_ptab, hfree, Placement.group,
      State.takeFrame_checkValues, hv]
    exact if_neg (mt State.locks_iff.1 hlock)

section
variable {s : State} {i : PlacementId} {g : GroupId} {v : RawValues} {old : Values} {a b : Frame} {restart : Nat}

/-- Past the tests of the numbers and of the lock, AMEND's values are tested unless the record is FADING (R47, R48). -/
theorem opAmend_unlocked (hr : restart ≤ 1) (hg : (s.ptab.get i).group = some g) (hlock : ¬ (s.groupState g).Locks)
    (hfading : ∀ h w x y start, s.ptab.get i ≠ .fading h w x y start) :
    opAmend i.val v restart s = match s.checkValues v with
      | .error status => s.answer status .empty
      | .ok w => s.amendRecord i w (decide (restart = 1)) := by
  simp only [opAmend, recordId_val, markOf_of_le hr, hg, State.locks_eq_false hlock]
  cases hi : s.ptab.get i with
  | fading h w x y start => exact absurd hi (hfading _ _ _ _ _)
  | _ => rfl

theorem exec_amend_unlocked {t : State} {unit : Nat} {status : Status} {p : Payload} (ht : s.Takes unit 13)
    (hr : restart ≤ 1) (hg : (s.ptab.get i).group = some g) (hlock : ¬ (s.groupState g).Locks)
    (hfading : ∀ h w x y start, s.ptab.get i ≠ .fading h w x y start)
    (hact : ∀ bytes, (match s.checkValues v with
      | .error status => (s.takeFrame bytes).answer status .empty
      | .ok w => (s.takeFrame bytes).amendRecord i w (decide (restart = 1))) = (t.takeFrame bytes).answer status p) :
    exec (.amend unit i.val v restart) s = .next (t.replied unit (.amend i.val v restart) status p) :=
  exec_replied (c := .amend i.val v restart) ht (hop := fun bytes =>
    (opAmend_unlocked (s := s.takeFrame bytes) hr hg hlock hfading).trans (hact bytes))

end

/-- Settles O24: the three tests in order, then the values, then the effect on each state of the record. -/
theorem placementAmended : Obligations.PlacementAmended := by
  unfold Obligations.PlacementAmended
  refine ⟨fun s unit id restart v ht hbad => ?misfit, fun s unit i v restart ht hr => ⟨fun hfree => ?free,
    fun g hg hlock => ?locked, fun g old a b start hi hlock => ?fading, fun g old a b p status hi hlock hv => ?refused,
    fun g old w hi hlock hv => ?staged, fun g old a b p w hi hlock hv => ?live⟩⟩
  case misfit =>
    refine exec_replied (c := .amend id v restart) ht (hop := fun bytes => ?_)
    rcases hbad with hid | hr
    · simp only [commandOp, opAmend, recordId_eq_none hid]
    · simp only [commandOp, opAmend, markOf_eq_none hr]
      cases recordId id 128 <;> rfl
  case free =>
    exact exec_replied (c := .amend i.val v restart) ht (hop := fun bytes => by
      simp only [commandOp, opAmend, recordId_val, markOf_of_le hr, State.takeFrame_ptab, hfree, Placement.group])
  case locked =>
    exact exec_replied (c := .amend i.val v restart) ht (hop := fun bytes => by
      simp only [commandOp, opAmend, recordId_val, markOf_of_le hr, State.takeFrame_ptab, hg]
      exact if_pos (State.locks_iff.2 hlock))
  case fading =>
    exact exec_replied (c := .amend i.val v restart) ht (hop := fun bytes => by
      simp only [commandOp, opAmend, recordId_val, markOf_of_le hr, State.takeFrame_ptab, hi, Placement.group]
      exact if_neg (mt State.locks_iff.1 hlock))
  case refused =>
    have hg : (s.ptab.get i).group = some g := by rcases hi with hi | hi <;> rw [hi] <;> rfl
    have hfading : ∀ h w x y start, s.ptab.get i ≠ .fading h w x y start := by
      rintro h w x y start he
      rw [he] at hi; rcases hi with hi | hi <;> cases hi
    exact exec_amend_unlocked ht hr hg hlock hfading fun bytes => by rw [hv]
  case staged =>
    refine exec_amend_unlocked (t := { s with
      ptab := s.ptab.set i (.staged g w)
      sdir := (s.sdir.modify old.surface fun r => { r with refs := r.refs - 1 }).modify w.surface
        fun r => { r with refs := r.refs + 1 } }) ht hr (congrArg Placement.group hi) hlock (by simp [hi]) fun bytes => ?_
    simp only [hv, State.amendRecord, State.takeFrame_ptab, hi]
    rfl
  case live =>
    refine exec_amend_unlocked (t := { s with
      ptab := s.ptab.set i (.live g old a b (some (.replace w (decide (restart = 1)))))
      sdir := (match p with
        | some (.replace dropped _) => s.sdir.modify dropped.surface fun r => { r with refs := r.refs - 1 }
        | _ => s.sdir).modify w.surface fun r => { r with refs := r.refs + 1 } }) ht hr (congrArg Placement.group hi) hlock
      (by simp [hi]) fun bytes => ?_
    simp only [hv, State.amendRecord, State.takeFrame_ptab, hi]
    rcases p with _ | _ | _ <;> rfl

/-- RETIRE's answer on a record past the tests is that of its effect. -/
theorem exec_retire_passed {s t : State} {i : PlacementId} {g : GroupId} {unit : Nat} {status : Status} {p : Payload}
    (ht : s.Takes unit 14) (hg : (s.ptab.get i).group = some g) (hlock : ¬ (s.groupState g).Locks)
    (hact : ∀ bytes, (s.takeFrame bytes).retireRecord i = (t.takeFrame bytes).answer status p) :
    exec (.retire unit i.val) s = .next (t.replied unit (.retire i.val) status p) :=
  exec_retire_replied ht fun bytes => (onUnlockedRecord_passed (s := s.takeFrame bytes) hg hlock).trans (hact bytes)

/-- Settles O25: the three shared tests decide first, and past them each clause is the effect on one state of the record. -/
theorem placementRetired : Obligations.PlacementRetired := by
  unfold Obligations.PlacementRetired
  refine ⟨fun s unit id ht hid => exec_retire_replied ht fun _ => onUnlockedRecord_noRecord hid,
    fun s unit i ht hr => exec_retire_replied ht fun _ => onUnlockedRecord_free hr,
    fun s unit i g ht hg hlock => exec_retire_replied ht fun _ => onUnlockedRecord_locked hg hlock,
    fun s unit i g v ht hlock => ⟨fun hr => ?staged, fun a b hr => ?live, fun a b new restart hr => ?replace,
      fun a b start hr => ?fading⟩⟩
  case staged =>
    exact exec_retire_passed ht (congrArg Placement.group hr) hlock fun _ => State.retireRecord_staged hr
  case live =>
    have hg : (s.ptab.get i).group = some g := by rcases hr with hr | hr <;> rw [hr] <;> rfl
    refine exec_retire_passed (t := { s with ptab := s.ptab.set i (.live g v a b (some .retire)) }) ht hg hlock fun bytes => ?_
    rcases hr with hr | hr <;> simp only [State.retireRecord, State.takeFrame_ptab, hr] <;> rfl
  case replace =>
    refine exec_retire_passed (t := { s with
      ptab := s.ptab.set i (.live g v a b (some .retire))
      sdir := s.sdir.modify new.surface fun r => { r with refs := r.refs - 1 } }) ht (congrArg Placement.group hr) hlock
      fun bytes => ?_
    simp only [State.retireRecord, State.takeFrame_ptab, hr]
    rfl
  case fading =>
    exact exec_retire_passed ht (congrArg Placement.group hr) hlock fun bytes => by
      simp only [State.retireRecord, State.takeFrame_ptab, hr]

/-! ### COMMIT and CANCEL (R68 to R70, R75) -/

theorem frameAhead_iff {x n : Frame} : frameAhead x n = true ↔ 1 ≤ (x - n).toNat ∧ (x - n).toNat ≤ 2147483647 := by
  simp only [frameAhead, Bool.and_eq_true, decide_eq_true_eq]
  omega

theorem Role.eq_slave_of_ne {r : Role} (h : r ≠ .master) : r = .slave := by
  cases r with
  | master => exact absurd rfl h
  | slave => rfl

section
variable {s : State} {g : GroupId}

theorem opCommit_idle (hm : s.clc.straps.role = .master) (hi : s.groupState g = .idle) :
    opCommit g.val s = s.commitIdle g := by
  simp [opCommit, recordId_val, hm, hi]

theorem exec_commit_idle {t : State} {unit : Nat} {status : Status} {p : Payload} (ht : s.Takes unit 19)
    (hm : s.clc.straps.role = .master) (hi : s.groupState g = .idle)
    (hact : ∀ bytes, (s.takeFrame bytes).commitIdle g = (t.takeFrame bytes).answer status p) :
    exec (.commit unit g.val) s = .next (t.replied unit (.commit g.val) status p) :=
  exec_replied (c := .commit g.val) ht (hop := fun bytes => (opCommit_idle (s := s.takeFrame bytes) hm hi).trans (hact bytes))

theorem State.commitIdle_immediate (h : (s.groups.get g).trigger = .immediate) : s.commitIdle g = s.commitDue g := by
  simp only [State.commitIdle, h]

theorem State.commitIdle_cue {c : CueId} {e : Edge} (h : (s.groups.get g).trigger = .cue c e) :
    s.commitIdle g = if e = .level ∧ s.cbi.cue.get c = some true then s.commitDue g else s.commitArmed g none := by
  simp only [State.commitIdle, h]

theorem State.commitIdle_frame {target : Frame} (h : (s.groups.get g).trigger = .frame target) :
    s.commitIdle g = if frameAhead target s.csu.frame then s.commitArmed g (some (framesSince target s.csu.frame))
      else s.answer .tooLate (.frameNow s.csu.frame) := by
  simp only [State.commitIdle, h]

theorem opCancel_master (hm : s.clc.straps.role = .master) : opCancel g.val s = match s.groupState g with
    | .idle => s.answer .nothingPending .empty
    | .nominated f => s.answer .tooLate (.nominatedAt f)
    | .inDoubt f => s.answer .tooLate (.nominatedAt f)
    | .armed => (s.withdrawGroup g).answer .ok (.cancelled .armed)
    | .due => (s.withdrawGroup g).answer .ok (.cancelled .due) := by
  have hr : ¬ s.clc.straps.role = .slave := by rw [hm]; exact nofun
  simp only [opCancel, recordId_val, if_neg hr] <;> rfl

end

/-- Settles O30: the role is tested first, then the group, then its trigger decides. -/
theorem groupCommitted : Obligations.GroupCommitted := by
  unfold Obligations.GroupCommitted
  refine ⟨fun s unit group ht hid => ?noRecord, fun s unit g ht => ⟨fun hm => ?slave, fun hm hi => ?busy,
    fun hm hi htr => ?immediate, fun c e hm hi htr => ?cue, fun target hm hi htr => ?frame⟩⟩
  case noRecord =>
    exact exec_replied (c := .commit group) ht (hop := fun bytes => by simp only [commandOp, opCommit, recordId_eq_none hid])
  case slave =>
    exact exec_replied (c := .commit g.val) ht (hop := fun bytes => by
      simp [commandOp, opCommit, recordId_val, Role.eq_slave_of_ne hm])
  case busy =>
    have hm' : s.clc.straps.role = .master := hm
    have hi' : ¬ s.groupState g = .idle := hi
    refine exec_replied (c := .commit g.val) ht (hop := fun bytes => ?_)
    simp only [commandOp, opCommit, recordId_val, State.takeFrame, hm']
    exact if_neg hi'
  case immediate => exact exec_commit_idle ht hm hi fun bytes => State.commitIdle_immediate htr
  case cue =>
    split
    · next hlevel =>
      exact exec_commit_idle ht hm hi fun bytes => (State.commitIdle_cue (s := s.takeFrame bytes) htr).trans (if_pos hlevel)
    · next hlevel =>
      exact exec_commit_idle ht hm hi fun bytes => (State.commitIdle_cue (s := s.takeFrame bytes) htr).trans (if_neg hlevel)
  case frame =>
    split
    · next hahead =>
      exact exec_commit_idle ht hm hi fun bytes => (State.commitIdle_frame (s := s.takeFrame bytes) htr).trans (if_pos (frameAhead_iff.2 hahead))
    · next hahead =>
      exact exec_commit_idle ht hm hi fun bytes => (State.commitIdle_frame (s := s.takeFrame bytes) htr).trans (if_neg (mt frameAhead_iff.1 hahead))

/-- Settles O31: the role is tested first, then the state of the group decides. -/
theorem groupCancelled : Obligations.GroupCancelled := by
  unfold Obligations.GroupCancelled
  refine ⟨fun s unit group ht hid => ?noRecord, fun s unit g ht => ⟨fun hs => ?slave, fun hm hi => ?idle, fun f hm hi => ?nominated,
    fun hm hi => ?armed, fun hm hi => ?due⟩⟩
  case noRecord =>
    exact exec_replied (c := .cancel group) ht (hop := fun bytes => by simp only [commandOp, opCancel, recordId_eq_none hid])
  case slave =>
    exact exec_replied (c := .cancel g.val) ht (hop := fun bytes => by
      simp [commandOp, opCancel, recordId_val, hs])
  case idle =>
    exact exec_replied (c := .cancel g.val) ht (hop := fun bytes => (opCancel_master (s := s.takeFrame bytes) hm).trans (by
      rw [show (s.takeFrame bytes).groupState g = .idle from hi]))
  case nominated =>
    exact exec_replied (c := .cancel g.val) ht (hop := fun bytes => (opCancel_master (s := s.takeFrame bytes) hm).trans (by
      rw [show (s.takeFrame bytes).groupState g = .nominated f from hi]))
  case armed =>
    exact exec_replied (c := .cancel g.val) ht (hop := fun bytes => (opCancel_master (s := s.takeFrame bytes) hm).trans (by
      rw [show (s.takeFrame bytes).groupState g = .armed from hi]; rfl))
  case due =>
    exact exec_replied (c := .cancel g.val) ht (hop := fun bytes => (opCancel_master (s := s.takeFrame bytes) hm).trans (by
      rw [show (s.takeFrame bytes).groupState g = .due from hi]; rfl))

/-! ### SET_BACKGROUND and TILE_MODE (R126, R163) -/

theorem channelsInRange_iff {c : Rgb} : channelsInRange c = true ↔ c.red ≤ 255 ∧ c.green ≤ 255 ∧ c.blue ≤ 255 := by
  simp [channelsInRange, within, and_assoc]

theorem flatInRange_iff {flat : Option Rgb} :
    flatInRange flat = true ↔ ∀ c, flat = some c → c.red ≤ 255 ∧ c.green ≤ 255 ∧ c.blue ≤ 255 := by
  cases flat <;> simp [flatInRange, channelsInRange_iff]

/-- The tiles a selector in range names. -/
theorem selectedTiles_eq {selector : Nat} (h : selector ≤ 16) :
    selectedTiles selector = some ((List.finRange 16).filter fun t => selector = 16 ∨ selector = t.val) := by
  interval_cases selector <;> decide

theorem selectedTiles_eq_none {selector : Nat} (h : 16 < selector) : selectedTiles selector = none := by
  have hne : selector ≠ 16 := by omega
  simp only [selectedTiles, if_neg hne, recordId_eq_none (Nat.le_of_lt h)]

theorem Mode.ofCode_of_mem {mode : Nat} {m : Mode}
    (h : (mode, m) ∈ [(0, Mode.picture), (1, .flat), (2, .black), (3, .hold), (4, .idle)]) : Mode.ofCode mode = some m := by
  simp only [List.mem_cons, Prod.mk.injEq, List.not_mem_nil, or_false] at h
  obtain ⟨rfl, rfl⟩ | ⟨rfl, rfl⟩ | ⟨rfl, rfl⟩ | ⟨rfl, rfl⟩ | ⟨rfl, rfl⟩ := h <;> rfl

theorem Mode.ofCode_eq_none {mode : Nat} (h : 4 < mode) : Mode.ofCode mode = none := by
  match mode, h with
  | n + 5, _ => rfl

/-- What TILE_MODE leaves of a selected tile's level. -/
theorem TileRec.withMode_level (r : TileRec) (m : Mode) (flat : Option Rgb) (level : Option Nat) :
    (r.withMode m flat level).level = match level with | none => r.level | some n => min n 256 := by
  cases level with
  | none => rfl
  | some n => exact Nat.min_comm 256 n

/-- Settles O43: each clause is the test that decides; the tiles written are those the selector names. -/
theorem pictureSettings : Obligations.PictureSettings := by
  unfold Obligations.PictureSettings
  refine ⟨fun s unit c ht => ?background, fun s unit selector mode flat level ht hbad => ?misfit,
    fun s unit selector mode m flat level ht hsel hmode hflat => ?written⟩
  case background =>
    split
    · next hr =>
      exact exec_replied (c := .setBackground c) (t := { s with bg := c }) ht (hop := fun bytes => by
        simp only [commandOp, opSetBackground, if_pos (channelsInRange_iff.2 hr)]; rfl)
    · next hr =>
      exact exec_replied (c := .setBackground c) ht (hop := fun bytes => by
        simp only [commandOp, opSetBackground, if_neg (mt channelsInRange_iff.1 hr)])
  case misfit =>
    refine exec_replied (c := .tileMode selector mode flat level) ht (hop := fun bytes => ?_)
    rcases hbad with hsel | hmode | ⟨c, rfl, hc⟩
    · simp only [commandOp, opTileMode, selectedTiles_eq_none hsel]
    · simp only [commandOp, opTileMode, Mode.ofCode_eq_none hmode]
      cases selectedTiles selector <;> rfl
    · have hrange : ¬ flatInRange (some c) = true := fun hin => by
        have := flatInRange_iff.1 hin c rfl
        omega
      simp only [commandOp, opTileMode, if_neg hrange]
      cases selectedTiles selector <;> cases Mode.ofCode mode <;> rfl
  case written =>
    intro stored
    have hlevels : ∀ t : TileId, t ∈ (List.finRange 16).filter (fun t => selector = 16 ∨ selector = t.val) →
        ((s.tiles.get t).withMode m flat level).level = stored t := fun t _ => TileRec.withMode_level _ m flat level
    refine exec_replied (c := .tileMode selector mode flat level) (t := { s with tiles := _ }) ht (hop := fun bytes => ?_)
    simp only [commandOp, opTileMode, selectedTiles_eq hsel, Mode.ofCode_of_mem hmode, if_pos (flatInRange_iff.2 hflat)]
    have htiles : (s.takeFrame bytes).writeModes ((List.finRange 16).filter fun t => selector = 16 ∨ selector = t.val) m flat level
        = State.takeFrame bytes
          { s with tiles := Table.ofFn fun t =>
            if selector = 16 ∨ selector = t.val then
              { (s.tiles.get t) with
                mode := m
                flat := (match flat with | none => (s.tiles.get t).flat | some c => c)
                level := stored t }
            else s.tiles.get t } := by
      unfold State.writeModes State.takeFrame
      simp only [State.mk.injEq, and_true, true_and]
      apply Table.ext_get
      intro t
      rw [Table.get_mapIdx, Table.get_ofFn]
      by_cases ht : selector = 16 ∨ selector = t.val
      · have hlevel := TileRec.withMode_level (s.tiles.get t) m flat level
        simp only [List.mem_filter, List.mem_finRange, ht, decide_true, and_self, if_true]
        simp only [TileRec.withMode] at hlevel ⊢
        rw [hlevel]
        cases flat <;> rfl
      · simp [ht]
    rw [htiles]
    refine congrArg (fun l => State.answer _ .ok (.levels l)) (List.map_congr_left fun t hmem => ?_)
    obtain ⟨-, hsel⟩ := List.mem_filter.1 hmem
    simp only [State.takeFrame_tiles, Table.get_ofFn, if_pos (of_decide_eq_true hsel)]

/-! ### SET_PACING and the windows (R141, R144) -/

/-- Settles O49: the code by its range; a window and a reset by what they write of the controller. -/
theorem pacingCodeActs : Obligations.PacingCodeActs := by
  unfold Obligations.PacingCodeActs
  refine ⟨fun s unit c ht => ?stored, fun s unit code ht hbad => ?refused, fun s unit code hp => ?starting, fun s hp => ?window,
    fun s hp => if_pos hp, fun straps inputs s t h => ?powerOn, fun s t hpin h => ?assert, fun straps s t hpin h => ?release,
    fun s t c hc h => ?kept⟩
  case stored =>
    exact exec_replied (c := .setPacing c.val) (t := { s with fsc := { s.fsc with pacing := c } }) ht (hop := fun bytes => by
      simp only [commandOp, opSetPacing, recordId_val]; rfl)
  case refused =>
    exact exec_replied (c := .setPacing code) ht (hop := fun bytes => by
      simp only [commandOp, opSetPacing, recordId_eq_none hbad])
  case starting => exact congrArg Host.Outcome.next (State.hostCommand_starting hp unit _ _)
  case window =>
    have hexec : exec .pacingWindow s = execPacingWindow s := rfl
    rw [hexec, execPacingWindow, if_neg hp, State.grant_of_ne_starting (by exact hp)]
    rfl
  case powerOn =>
    obtain rfl := Host.Outcome.next.inj h
    rfl
  case assert =>
    have hexec : exec .rstAllAssert s = execRstAllAssert s := rfl
    rw [hexec, execRstAllAssert, if_neg (by simp [hpin])] at h
    obtain rfl := Host.Outcome.next.inj h
    rfl
  case release =>
    have hexec : exec (.rstAllRelease straps) s = execRstAllRelease straps s := rfl
    rw [hexec, execRstAllRelease, if_pos hpin] at h
    obtain rfl := Host.Outcome.next.inj h
    rfl
  case kept =>
    rcases hc with rfl | rfl | ⟨unit, rfl⟩
    · have hexec : exec .rstKeepAssert s = execRstKeepAssert s := rfl
      rw [hexec, execRstKeepAssert] at h
      split at h <;> obtain rfl := Host.Outcome.next.inj h <;> rfl
    · have hexec : exec .rstKeepRelease s = execRstKeepRelease s := rfl
      rw [hexec, execRstKeepRelease] at h
      split at h <;> obtain rfl := Host.Outcome.next.inj h <;> rfl
    · obtain rfl := Host.Outcome.next.inj h
      exact State.receive_keeps (P := fun u => u.fsc.pacing = s.fsc.pacing) rfl (fun _ _ _ hu => hu) (fun _ _ hu => hu)
        fun _ _ => rfl

end Sys2Proof.Machine

/-! SUPPORT. Everything a step can make of the part, said once: what a host command past its link tests leaves (`State.ByCommand`), and
what any row leaves (`State.Becomes`). Each invariant of Safety.lean is then shown by cases on these outcomes. -/

namespace Sys2Proof.Machine

/-! ### What no invariant reads -/

/-- `t` is `s` but for what no invariant reads: the queue, the clock, the pins, the link (its straps and the job that executes are as
they were), the settings not yet in force, the inputs, the events and the pacing code. -/
def State.Quiet (s t : State) : Prop :=
  t = { s with
      pending := t.pending, now := t.now, startingEnd := t.startingEnd, pins := t.pins, clc := t.clc, rate := t.rate, geo := t.geo
      bg := t.bg, cbi := t.cbi, evb := t.evb, freeCount := t.freeCount, fsc := { s.fsc with pacing := t.fsc.pacing } }
    ∧ t.clc.straps = s.clc.straps ∧ t.clc.executing.map Executing.job = s.clc.executing.map Executing.job

theorem State.Quiet.refl (s : State) : s.Quiet s := ⟨rfl, rfl, rfl⟩

theorem State.Quiet.trans {s t u : State} (h : s.Quiet t) (k : t.Quiet u) : s.Quiet u := by
  obtain ⟨h1, h2, h3⟩ := h
  obtain ⟨k1, k2, k3⟩ := k
  refine ⟨?_, k2.trans h2, k3.trans h3⟩
  rw [k1, h1]

theorem State.Quiet.executing_eq_none {s t : State} (h : s.Quiet t) : t.clc.executing = none ↔ s.clc.executing = none := by
  rw [← Option.map_eq_none_iff (f := Executing.job), h.2.2, Option.map_eq_none_iff]

/-- A frame that passes moves GIN alone. -/
theorem State.quiet_hears (s : State) (bytes : List Byte) : s.Quiet (s.hears bytes) := by
  unfold State.hears
  split <;> exact ⟨rfl, rfl, rfl⟩

theorem State.quiet_takeFrame (s : State) (bytes : List Byte) : s.Quiet (s.takeFrame bytes) := ⟨rfl, rfl, rfl⟩

theorem State.quiet_atLeast (s : State) (n : Nat) : s.Quiet (s.atLeast n) := ⟨rfl, rfl, rfl⟩

/-! ### What a command leaves -/

/-- Name notices for each of a list of surfaces. -/
def State.nameAll (is : List SurfaceId) (s : State) : State := is.foldl (fun s i => s.nameSurface i) s

/-- A placement command on record `i` of an unlocked group: the record is `r` afterwards, `dropped` are the surfaces it names no longer
and `named` those it names from now on (R46 to R51). New values have passed the tests of R45, and what is shown stays. -/
structure State.Rewrites (s : State) (i : PlacementId) (r : Placement) (dropped named : List SurfaceId) : Prop where
  unlocked : ∀ g, (s.ptab.get i).group = some g ∨ r.group = some g → s.locks g = false
  slots : ∀ j, (s.ptab.get i).slots.count j + named.count j = r.slots.count j + dropped.count j
  dropped : ∀ j, dropped.count j ≤ (s.ptab.get i).slots.count j
  values : ∀ v ∈ r.valueSets, v ∈ (s.ptab.get i).valueSets ∨ ∃ raw, s.checkValues raw = .ok v
  named : ∀ j ∈ named, ∃ raw v, s.checkValues raw = .ok v ∧ v.surface = j
  shown : r.shown = (s.ptab.get i).shown

/-- The part after such a command. -/
def State.rewrite (i : PlacementId) (r : Placement) (dropped named : List SurfaceId) (s : State) : State :=
  ((s.setPlacement i r).unnameAll dropped).nameAll named

/-- What a host command makes of the part past tests 1 to 5 of R178, and what it answers. -/
inductive State.ByCommand (s : State) : State → Result → Prop where
  | answers {t : State} (status : Status) (payload : Payload) (h : s.Quiet t) (hqueue : t.pending = s.pending := by rfl) :
      s.ByCommand t (.done status payload)
  | tiles (tiles : Table TileRec 16) (status : Status) (payload : Payload)
      (h : ∀ t, (tiles.get t).warmUp = (s.tiles.get t).warmUp ∧ ((tiles.get t).level ≤ 256 ∨ (tiles.get t).level = (s.tiles.get t).level)) :
      s.ByCommand { s with tiles := tiles } (.done status payload)
  | power (ts : List TileId) (on : Bool) (warmUp : Option Nat) (status : Status) (payload : Payload) :
      s.ByCommand ((s.storeWarmUp ts warmUp).switchPorts ts on) (.done status payload)
  | stops (status : Status) (payload : Payload) : s.ByCommand (s.enterPhase .config) (.done status payload)
  | starts : s.ByCommand s.beginStart (.begins .start)
  | resets : s.ByCommand (s.keepValues.startingFor shortStart) .silent
  | defines (i : SurfaceId) (d : Desc) (status : Status) (payload : Payload) (hnamed : ¬ 0 < (s.sdir.get i).named)
      (hfits : s.fitsStore d = true) (hoverlap : s.overlapping i d = none) :
      s.ByCommand (s.setSurface i (.loading d 0)) (.done status payload)
  | drops (i : SurfaceId) (status : Status) (payload : Payload) (hrefs : ¬ 0 < (s.sdir.get i).refs) :
      s.ByCommand (s.setSurface i .empty) (.done status payload)
  | uploads (i : SurfaceId) (d : Desc) (loaded : Nat) (chunk : List Byte) (hi : s.surface i = .loading d loaded) :
      s.ByCommand (s.handOverUpload (uploadOf d loaded chunk)) (.begins (.upload i (uploadOf d loaded chunk).data.length))
  | rewrites (i : PlacementId) (r : Placement) (dropped named : List SurfaceId) (status : Status) (payload : Payload)
      (h : s.Rewrites i r dropped named) : s.ByCommand (s.rewrite i r dropped named) (.done status payload)
  | setsGroup (groups : Table GroupRec 8) (status : Status) (payload : Payload)
      (h : ∀ g, (groups.get g).state = (s.groups.get g).state) : s.ByCommand { s with groups := groups } (.done status payload)
  | makesDue (g : GroupId) (status : Status) (payload : Payload) (hrole : s.clc.straps.role = .master) (hidle : s.groupState g = .idle) :
      s.ByCommand (s.makeDue g) (.done status payload)
  | arms (g : GroupId) (status : Status) (payload : Payload) (hrole : s.clc.straps.role = .master) (hidle : s.groupState g = .idle) :
      s.ByCommand (s.setGroupState g .armed) (.done status payload)
  | withdraws (g : GroupId) (status : Status) (payload : Payload) (hrole : s.clc.straps.role = .master)
      (hwaits : s.groupState g = .armed ∨ s.groupState g = .due) : s.ByCommand (s.withdrawGroup g) (.done status payload)

/-- An answer that changes nothing. -/
theorem State.ByCommand.answer (s : State) (status : Status) (payload : Payload) :
    s.ByCommand (s.answer status payload).1 (s.answer status payload).2 := .answers status payload (.refl s)

section
variable (s : State)

theorem opSetTile_byCommand (tile placed column row : Nat) (trimX trimY : Int) :
    s.ByCommand (opSetTile tile placed column row trimX trimY s).1 (opSetTile tile placed column row trimX trimY s).2 := by
  unfold opSetTile
  split
  · exact .answer s _ _
  · next t _ =>
    split
    · refine .tiles _ _ _ fun u => ?_
      rw [Table.get_modify]
      split <;> exact ⟨rfl, .inr rfl⟩
    · exact .answer s _ _

theorem opDefineSurface_byCommand (id format width height cells basePage : Nat) (key : Option Nat) :
    s.ByCommand (opDefineSurface id format width height cells basePage key s).1
      (opDefineSurface id format width height cells basePage key s).2 := by
  unfold opDefineSurface
  split
  · exact .answer s _ _
  · next i _ =>
    split
    · exact .answer s _ _
    · next hnamed =>
      split
      · exact .answer s _ _
      · next d _ =>
        split
        · next hfits =>
          split
          · exact .answer s _ _
          · next hoverlap => exact .defines i d _ _ hnamed hfits hoverlap
        · exact .answer s _ _

theorem opUpload_byCommand (id offset : Nat) (chunk : List Byte) :
    s.ByCommand (opUpload id offset chunk s).1 (opUpload id offset chunk s).2 := by
  unfold opUpload
  split
  · next i _ _ =>
    split
    · exact .answer s _ _
    · exact .answer s _ _
    · next d loaded hi =>
      split
      · exact .uploads i d loaded chunk hi
      · exact .answer s _ _
  · exact .answer s _ _

theorem opDropSurface_byCommand (id : Nat) : s.ByCommand (opDropSurface id s).1 (opDropSurface id s).2 := by
  unfold opDropSurface
  split
  · exact .answer s _ _
  · next i _ =>
    split
    · exact .answer s _ _
    · split
      · exact .answer s _ _
      · next hrefs => exact .drops i _ _ hrefs

theorem Placement.slots_free : Placement.free.slots = [] := rfl

/-- A record's group in a state that has none is that of a FREE record. -/
theorem Placement.group_eq_none {r : Placement} (h : r.group = none) : r = .free := by
  cases r <;> first | rfl | cases h

theorem opPlace_byCommand (id group : Nat) (values : RawValues) :
    s.ByCommand (opPlace id group values s).1 (opPlace id group values s).2 := by
  unfold opPlace
  split
  · next i g _ _ =>
    split
    · exact .answer s _ _
    · next hgroup =>
      have hfree := Placement.group_eq_none hgroup
      split
      · exact .answer s _ _
      · next hlocks =>
        split
        · exact .answer s _ _
        · next v hv =>
          refine .rewrites i (.staged g v) [] [v.surface] _ _ ⟨fun h hh => ?_, fun j => ?_, fun j => ?_, fun w hw => ?_, fun j hj => ?_, ?_⟩
          · rcases hh with hh | hh
            · rw [hgroup] at hh; cases hh
            · cases hh
              exact Bool.eq_false_iff.2 hlocks
          · rw [hfree]; simp [Placement.slots]
          · simp
          · cases List.mem_singleton.1 hw
            exact .inr ⟨values, hv⟩
          · exact ⟨values, v, hv, (List.mem_singleton.1 hj).symm⟩
          · rw [hfree]; rfl
  · exact .answer s _ _

theorem State.amendRecord_byCommand {i : PlacementId} {g : GroupId} {v : Values} {raw : RawValues} {restart : Bool}
    (hg : (s.ptab.get i).group = some g) (hlocks : ¬ s.locks g = true) (hv : s.checkValues raw = .ok v) :
    s.ByCommand (s.amendRecord i v restart).1 (s.amendRecord i v restart).2 := by
  have hunlocked : ∀ h, (s.ptab.get i).group = some h → s.locks h = false := fun h hh => by
    cases hg.symm.trans hh
    exact Bool.eq_false_iff.2 hlocks
  unfold State.amendRecord
  split
  · next h old hr =>
    rw [hr] at hunlocked
    refine .rewrites i (.staged h v) [old.surface] [v.surface] _ _
      ⟨fun k hk => hunlocked k (hk.elim (by rw [hr]; exact id) id), fun j => ?_, fun j => ?_, fun w hw => ?_, fun j hj => ?_, ?_⟩
    · rw [hr]; simp only [Placement.slots]; omega
    · rw [hr]; exact Nat.le_refl _
    · cases List.mem_singleton.1 hw
      exact .inr ⟨raw, hv⟩
    · exact ⟨raw, v, hv, (List.mem_singleton.1 hj).symm⟩
    · rw [hr]; rfl
  · next h old since valuesSince p hr =>
    rw [hr] at hunlocked
    refine .rewrites i (.live h old since valuesSince (some (.replace v restart))) (Pending.surfaces p) [v.surface] _ _
      ⟨fun k hk => hunlocked k (hk.elim (by rw [hr]; exact id) id), fun j => ?_, fun j => ?_, fun w hw => ?_, fun j hj => ?_, ?_⟩
    · rw [hr]; simp only [Placement.slots, Pending.surfaces, List.count_cons]; omega
    · rw [hr]; simp only [Placement.slots, List.count_cons]; omega
    · simp only [Placement.valueSets, List.mem_cons, List.not_mem_nil, or_false] at hw
      rcases hw with rfl | rfl
      · left; rw [hr]; unfold Placement.valueSets; split <;> simp_all
      · exact .inr ⟨raw, hv⟩
    · exact ⟨raw, v, hv, (List.mem_singleton.1 hj).symm⟩
    · rw [hr]; rfl
  · exact .answer s _ _
  · exact .answer s _ _

theorem opAmend_byCommand (id : Nat) (values : RawValues) (restart : Nat) :
    s.ByCommand (opAmend id values restart s).1 (opAmend id values restart s).2 := by
  unfold opAmend
  split
  · split
    · exact .answer s _ _
    · next hg =>
      split
      · exact .answer s _ _
      · next hlocks =>
        split
        · exact .answer s _ _
        · split
          · exact .answer s _ _
          · next hv => exact s.amendRecord_byCommand hg hlocks hv
  · exact .answer s _ _

/-- What acts on an unlocked record alone decides what RETIRE and WITHDRAW leave. -/
theorem onUnlockedRecord_byCommand {act : PlacementId → CommandOp}
    (h : ∀ i g, (s.ptab.get i).group = some g → ¬ s.locks g = true → s.ByCommand (act i s).1 (act i s).2) (id : Nat) :
    s.ByCommand (onUnlockedRecord id act s).1 (onUnlockedRecord id act s).2 := by
  unfold onUnlockedRecord
  split
  · exact .answer s _ _
  · split
    · exact .answer s _ _
    · next hg =>
      split
      · exact .answer s _ _
      · next hlocks => exact h _ _ hg hlocks

/-- A STAGED record becomes FREE. -/
theorem State.Rewrites.freesStaged {i : PlacementId} {g : GroupId} {v : Values} (hr : s.ptab.get i = .staged g v)
    (hunlocked : ∀ h, (s.ptab.get i).group = some h → s.locks h = false) : s.Rewrites i .free [v.surface] [] where
  unlocked := fun k hk => hunlocked k (hk.elim id nofun)
  slots := fun j => by rw [hr]; simp [Placement.slots]
  dropped := fun j => by rw [hr]; exact Nat.le_refl _
  values := nofun
  named := nofun
  shown := by rw [hr]; rfl

/-- A LIVE record loses its pending amendment, or holds a RETIRE in its place. -/
theorem State.Rewrites.dropsPending {i : PlacementId} {g : GroupId} {v : Values} {a b : Frame} {p q : Option Pending}
    (hr : s.ptab.get i = .live g v a b p) (hunlocked : ∀ h, (s.ptab.get i).group = some h → s.locks h = false)
    (hq : q = none ∨ q = some .retire) : s.Rewrites i (.live g v a b q) (Pending.surfaces p) [] where
  unlocked := fun k hk => hunlocked k (hk.elim id (by rw [hr]; exact id))
  slots := fun j => by
    rw [hr]
    rcases hq with rfl | rfl <;> simp only [Placement.slots, Pending.surfaces, List.count_cons, List.count_nil] <;> omega
  dropped := fun j => by rw [hr]; simp only [Placement.slots, List.count_cons]; omega
  values := fun w hw => by
    left
    have hw' : w = v := by rcases hq with rfl | rfl <;> exact List.mem_singleton.1 hw
    rw [hr, hw']
    unfold Placement.valueSets
    split <;> simp_all
  named := nofun
  shown := by rw [hr]; rfl

theorem opRetire_byCommand (id : Nat) : s.ByCommand (opRetire id s).1 (opRetire id s).2 := by
  refine onUnlockedRecord_byCommand s (fun i g hg hlocks => ?_) id
  have hunlocked : ∀ h, (s.ptab.get i).group = some h → s.locks h = false := fun h hh => by
    cases hg.symm.trans hh
    exact Bool.eq_false_iff.2 hlocks
  unfold State.retireRecord
  split
  · exact .answer s _ _
  · next hr => exact .rewrites i _ _ [] _ _ (.freesStaged s hr hunlocked)
  · next hr => exact .rewrites i _ _ [] _ _ (.dropsPending s hr hunlocked (.inr rfl))
  · exact .answer s _ _

theorem opWithdraw_byCommand (id : Nat) : s.ByCommand (opWithdraw id s).1 (opWithdraw id s).2 := by
  refine onUnlockedRecord_byCommand s (fun i g hg hlocks => ?_) id
  have hunlocked : ∀ h, (s.ptab.get i).group = some h → s.locks h = false := fun h hh => by
    cases hg.symm.trans hh
    exact Bool.eq_false_iff.2 hlocks
  unfold State.withdrawRecord
  split
  · exact .answer s _ _
  · next hr => exact .rewrites i _ _ [] _ _ (.freesStaged s hr hunlocked)
  · next hr => exact .rewrites i _ _ [] _ _ (.dropsPending s hr hunlocked (.inl rfl))
  · exact .answer s _ _
  · exact .answer s _ _

theorem opSetGroup_byCommand (group kind cue edge target timeout : Nat) :
    s.ByCommand (opSetGroup group kind cue edge target timeout s).1 (opSetGroup group kind cue edge target timeout s).2 := by
  unfold opSetGroup
  split
  · exact .answer s _ _
  · next g _ =>
    split
    · exact .answer s _ _
    · split
      · refine .setsGroup _ _ _ fun h => ?_
        rw [Table.get_modify]
        split <;> rfl
      · exact .answer s _ _

theorem State.commitIdle_byCommand {g : GroupId} (hrole : s.clc.straps.role = .master) (hidle : s.groupState g = .idle) :
    s.ByCommand (s.commitIdle g).1 (s.commitIdle g).2 := by
  unfold State.commitIdle
  split
  · exact .makesDue g _ _ hrole hidle
  · split
    · exact .makesDue g _ _ hrole hidle
    · exact .arms g _ _ hrole hidle
  · split
    · exact .arms g _ _ hrole hidle
    · exact .answer s _ _

theorem Role.eq_master_of_ne {r : Role} (h : ¬ r = .slave) : r = .master := by
  cases r
  · rfl
  · exact absurd rfl h

theorem opCommit_byCommand (group : Nat) : s.ByCommand (opCommit group s).1 (opCommit group s).2 := by
  unfold opCommit
  split
  · exact .answer s _ _
  · split
    · exact .answer s _ _
    · next hrole =>
      split
      · next hidle => exact s.commitIdle_byCommand (Role.eq_master_of_ne hrole) hidle
      · exact .answer s _ _

theorem opCancel_byCommand (group : Nat) : s.ByCommand (opCancel group s).1 (opCancel group s).2 := by
  unfold opCancel
  split
  · exact .answer s _ _
  · split
    · exact .answer s _ _
    · next hrole =>
      split
      · exact .answer s _ _
      · exact .answer s _ _
      · exact .answer s _ _
      · next h => exact .withdraws _ _ _ (Role.eq_master_of_ne hrole) (.inl h)
      · next h => exact .withdraws _ _ _ (Role.eq_master_of_ne hrole) (.inr h)

theorem opTilePower_byCommand (selector switch : Nat) (warmUp : Option Nat) :
    s.ByCommand (opTilePower selector switch warmUp s).1 (opTilePower selector switch warmUp s).2 := by
  unfold opTilePower
  split
  · exact .power _ _ warmUp _ _
  · exact .answer s _ _

theorem levelStored_le (n : Nat) : levelStored n ≤ 256 := Nat.min_le_left _ _

theorem opTileMode_byCommand (selector mode : Nat) (flat : Option Rgb) (level : Option Nat) :
    s.ByCommand (opTileMode selector mode flat level s).1 (opTileMode selector mode flat level s).2 := by
  unfold opTileMode
  split
  · split
    · refine .tiles _ _ _ fun t => ?_
      rw [Table.get_mapIdx]
      split
      · refine ⟨rfl, ?_⟩
        cases level with
        | none => exact .inr rfl
        | some n => exact .inl (levelStored_le n)
      · exact ⟨rfl, .inr rfl⟩
    · exact .answer s _ _
  · exact .answer s _ _

/-- Every command past the link's tests has one of the outcomes listed. -/
theorem commandOp_byCommand (c : HostCmd) : s.ByCommand (commandOp c s).1 (commandOp c s).2 := by
  cases c with
  | identify => exact .answer s _ _
  | status => exact .answers _ _ ⟨rfl, rfl, rfl⟩
  | setTiming rate =>
    simp only [commandOp, opSetTiming]
    split
    · exact .answer s _ _
    · exact .answers _ _ ⟨rfl, rfl, rfl⟩
  | setGeometry w h gx gy =>
    simp only [commandOp, opSetGeometry]
    split
    · exact .answers _ _ ⟨rfl, rfl, rfl⟩
    · exact .answer s _ _
  | setTile t p c r tx ty => exact opSetTile_byCommand s t p c r tx ty
  | start =>
    simp only [commandOp, opStart]
    split
    · exact .answer s _ _
    · exact .starts
  | stop => exact .stops _ _
  | softReset => exact .resets
  | defineSurface id f w h c b k => exact opDefineSurface_byCommand s id f w h c b k
  | upload id off chunk => exact opUpload_byCommand s id off chunk
  | dropSurface id => exact opDropSurface_byCommand s id
  | place id g v => exact opPlace_byCommand s id g v
  | amend id v r => exact opAmend_byCommand s id v r
  | retire id => exact opRetire_byCommand s id
  | withdraw id => exact opWithdraw_byCommand s id
  | lookup id => simp only [commandOp, opLookup]; split <;> exact .answer s _ _
  | find x y => simp only [commandOp, opFind]; split <;> exact .answer s _ _
  | setGroup g k c e t m => exact opSetGroup_byCommand s g k c e t m
  | commit g => exact opCommit_byCommand s g
  | cancel g => exact opCancel_byCommand s g
  | groupInfo g => simp only [commandOp, opGroupInfo]; split <;> exact .answer s _ _
  | surfaceInfo id => simp only [commandOp, opSurfaceInfo]; split <;> exact .answer s _ _
  | setBackground c =>
    simp only [commandOp, opSetBackground]
    split
    · exact .answers _ _ ⟨rfl, rfl, rfl⟩
    · exact .answer s _ _
  | tilePower sel w u => exact opTilePower_byCommand s sel w u
  | tileMode sel m f l => exact opTileMode_byCommand s sel m f l
  | tileInfo t => simp only [commandOp, opTileInfo]; split <;> exact .answer s _ _
  | setBlackout m i =>
    simp only [commandOp, opSetBlackout]
    split
    · exact .answers _ _ ⟨rfl, rfl, rfl⟩
    · exact .answer s _ _
  | clearBlackout =>
    simp only [commandOp, opClearBlackout]
    split
    · exact .answer s _ _
    · split
      · exact .answer s _ _
      · exact .answers _ _ ⟨rfl, rfl, rfl⟩
  | setPacing c =>
    simp only [commandOp, opSetPacing]
    split
    · exact .answer s _ _
    · exact .answers _ _ ⟨rfl, rfl, rfl⟩
  | events => exact .answers _ _ ⟨rfl, rfl, rfl⟩
  | setEventEnables m =>
    simp only [commandOp, opSetEventEnables]
    split
    · exact .answer s _ _
    · exact .answers _ _ ⟨rfl, rfl, rfl⟩
  | poll => exact .answers _ _ ⟨rfl, rfl, rfl⟩

end

/-! ### What a row leaves -/

/-- What a row that does not fault makes of the part. -/
inductive State.Becomes (s : State) : State → Prop where
  | quiet {t : State} (h : s.Quiet t) (hqueue : t.pending = s.pending := by rfl) : s.Becomes t
  | command {u v : State} {r : Result} (code : Nat) (broadcast : Bool) (hphase : s.phase ≠ .starting) (hidle : s.clc.executing = none)
      (hq : s.Quiet u) (h : u.ByCommand v r) (hqueue : u.pending = s.pending := by rfl) : s.Becomes (State.finish code broadcast (v, r))
  | fullReset (straps : Straps) (pins : Pins) (startingEnd : Nat) : s.Becomes (s.afterFullReset straps pins startingEnd)
  | keepReset (pins : Pins) (startingEnd : Nat) :
      s.Becomes { State.keepValues { s with pins := pins } with startingEnd := startingEnd }
  | startingEnds (n : Nat) (hphase : s.phase = .starting) : s.Becomes (s.atLeast n).endStarting
  | running (e : Executing) (he : s.clc.executing = some e) (hjob : e.job = .start) :
      s.Becomes ((s.enterPhase .running).returnResult .ok .empty)
  | masterBoundary (line : Bool) (hrole : s.clc.straps.role = .master) (hline : line = true → s.csu.rdyReleased = true) :
      s.Becomes (s.masterBoundary line)
  | frameTriggers (n : Nat) (f : Frame) (hrole : s.clc.straps.role = .master) : s.Becomes ((s.atLeast n).fireFrameTriggers f)
  | losesCount (hrole : s.clc.straps.role = .slave) : s.Becomes { s with csu := { s.csu with lockRun := 0 } }
  | takesWord (w : SyncWord) (hrole : s.clc.straps.role = .slave) (hsync : s.csu.sync = .locked) : s.Becomes (s.takeWord w)
  | countsWord (w : SyncWord) (hrole : s.clc.straps.role = .slave) :
      s.Becomes ((s.countWord w).handOver w.blackout w.frame)
  | relocks (w : SyncWord) (hrole : s.clc.straps.role = .slave) (hsync : s.csu.sync ≠ .locked) : s.Becomes ((s.countWord w).relock w)
  | losesSync (n : Nat) (hrole : s.clc.straps.role = .slave) (hsync : s.csu.sync = .locked) : s.Becomes (s.atLeast n).loseSync
  | freeRuns (n : Nat) (f : Frame) (hrole : s.clc.straps.role = .slave) (hsync : s.csu.sync ≠ .locked) :
      s.Becomes (((s.atLeast n).beginFrame f).retestRdy).closeBoundary
  | retests (n : Nat) : s.Becomes (s.atLeast n).retestRdy
  | recordEnds (sel : Selection) (hsync : s.csu.sync = .locked) : s.Becomes (s.evaluateWhere sel s.csu.frame).retestRdy
  | prepares : s.Becomes s.completePreparation
  | line (t : TileId) (n : Nat) : s.Becomes ((((s.atLeast n).sendDueLine t (s.frames.get t).nextLine).advanceLine t).requestLine t
      ((s.frames.get t).nextLine + 1)).grant
  | burst (b : Burst) (hb : s.fsc.burst = some b) (hinside : s.burstInside b = true) : s.Becomes (s.endBurst b)
  | window (n : Nat) : s.Becomes { s.atLeast n with fsc := s.fsc.newWindow }.grant
  | warmedUp (t : TileId) (n endsAt : Nat) (h : (s.ports.get t).state = .powering endsAt) :
      s.Becomes ((s.atLeast n).changePort t ((s.ports.get t).enter (.training 1 0), [.training 1 0]))
  | portBoundary (t : TileId) : s.Becomes (s.portBoundary t)
  | status (t : TileId) (locked : Bool) (temperature : Temperature) (hot : List Detail) (h : (s.ports.get t).state.takesStatus = true) :
      s.Becomes ((s.changePort t ((s.ports.get t).afterStatus locked temperature)).reportAll hot)
  | cueEdge (cue : CueId) (level seen : Bool) (n : Nat) : s.Becomes (((s.setCuePin cue level).atLeast n).takeCueEdge cue seen)

theorem State.Becomes.refl (s : State) : s.Becomes s := .quiet (.refl s)

/-- A frame on the link, whose operation has one of a command's outcomes (R177 to R179). -/
theorem State.receive_becomes {s u : State} (hq : s.Quiet u) (hqueue : u.pending = s.pending) (hphase : u.phase = s.phase) {op : CommandOp}
    (hop : ∀ v : State, v.ByCommand (op v).1 (op v).2) (bytes : List Byte) (unit code : Nat) (refusal : Option Status) :
    s.Becomes (u.receive bytes unit code refusal op) := by
  rcases u.receive_cases bytes unit code refusal op with h | ⟨_, _, h⟩ | ⟨_, he, status, h⟩ | ⟨hp, he, _, h⟩
  · rw [h]
    exact .quiet hq hqueue
  · rw [h]
    refine .quiet (hq.trans ⟨rfl, rfl, ?_⟩) hqueue
    show (u.clc.executing.map Executing.marked).map Executing.job = _
    rw [Option.map_map]
    rfl
  · rw [h]
    refine .quiet ((hq.trans (u.quiet_takeFrame bytes)).trans ⟨rfl, rfl, ?_⟩) hqueue
    show none = u.clc.executing.map Executing.job
    rw [he]
    rfl
  · rw [h]
    exact .command code _ (hphase ▸ hp) (hq.executing_eq_none.1 he) (hq.trans (u.quiet_takeFrame bytes)) (hop _) hqueue

theorem frameOp_byCommand (h : FrameHeader) (s : State) : s.ByCommand (frameOp h s).1 (frameOp h s).2 := by
  unfold frameOp
  cases parseCommand h.code h.rest with
  | none => exact .answer s _ _
  | some c => exact commandOp_byCommand s c

theorem State.takeTransfer_becomes (bytes : List Byte) (s : State) : s.Becomes ((s.hears bytes).takeTransfer bytes) := by
  unfold State.takeTransfer
  split
  · exact .quiet (s.quiet_hears bytes) (State.hears_pending s bytes)
  · exact State.receive_becomes (s.quiet_hears bytes) (State.hears_pending s bytes) (State.hears_phase s bytes) (frameOp_byCommand _) _ _ _ _

theorem exec_toInstr_becomes (unit : Nat) (c : HostCmd) (s t : State) (h : exec (c.toInstr unit) s = .next t) : s.Becomes t := by
  rw [exec_toInstr] at h
  cases h
  exact State.receive_becomes (s.quiet_hears _) (State.hears_pending s _) (State.hears_phase s _) (fun v => commandOp_byCommand v c) _ _ _ _

theorem State.receiveWord_becomes {s : State} (w : SyncWord) (hrole : s.clc.straps.role = .slave) : s.Becomes (s.receiveWord w) := by
  unfold State.receiveWord
  split
  · exact .losesCount hrole
  · split
    · next hsync => exact .takesWord w hrole hsync
    · next hsync =>
      simp only [State.countTowardLock]
      split
      · exact .countsWord w hrole
      · exact .relocks w hrole hsync

/-- A row's answer that is a next state with one of the outcomes listed. -/
def State.Answers (s : State) : Host.Outcome State Fault Refusal → Prop
  | .next t => s.Becomes t
  | .fault _ => False
  | .refused _ => False

/-- A row's answer: a next state with one of the outcomes listed, or the fault of a burst outside the strapped store (entry 5). -/
def State.Settles (s : State) : Host.Outcome State Fault Refusal → Prop
  | .next t => s.Becomes t
  | .fault f => ∃ b, s.fsc.burst = some b ∧ s.burstInside b = false ∧ f = .outsideStore b.address
  | .refused _ => False

theorem State.Answers.settles {s : State} {o : Host.Outcome State Fault Refusal} (h : s.Answers o) : s.Settles o := by
  cases o with
  | next t => exact h
  | fault f => exact h.elim
  | refused r => exact h

section
variable (s : State)

theorem execReadTransfer_answers (unit : Nat) (complete : Bool) : s.Answers (execReadTransfer unit complete s) := by
  unfold execReadTransfer
  split
  · exact .quiet ⟨rfl, rfl, rfl⟩
  · split <;> exact .quiet ⟨rfl, rfl, rfl⟩

theorem execGrantArrival_answers : s.Answers (execGrantArrival s) := by
  refine .quiet ⟨rfl, ?_, ?_⟩
  all_goals
    show _ = _
    simp only
    cases s.clc.grant
    · rfl
    · rcases s.takeGrant_cases with ⟨_, h⟩ | ⟨_, _, h⟩ | ⟨_, _, h⟩ <;> simp only [h]
    · rfl

theorem execCueEdge_answers (cue : CueId) (level : Bool) (held : Nat) : s.Answers (execCueEdge cue level held s) := by
  simp only [execCueEdge]
  split
  · exact .quiet ⟨rfl, rfl, rfl⟩
  · split
    · exact .cueEdge cue level _ _
    · exact .quiet ⟨rfl, rfl, rfl⟩

theorem execBlackoutInputChange_answers (level : Bool) (held : Nat) : s.Answers (execBlackoutInputChange level held s) := by
  simp only [execBlackoutInputChange]
  split <;> exact .quiet ⟨rfl, rfl, rfl⟩

theorem execStartComplete_answers : s.Answers (execStartComplete s) := by
  unfold execStartComplete
  split
  · next h =>
    obtain ⟨e, he, hjob⟩ := Option.map_eq_some_iff.1 h
    exact .running e he hjob
  · exact .refl s
  · exact .refl s

/-- A burst's end inside the strapped store, or its fault. -/
theorem endBurst_settles {b : Burst} (hb : s.fsc.burst = some b) :
    s.Settles (if s.burstInside b then .next (s.endBurst b) else .fault (.outsideStore b.address)) := by
  split
  · next hinside => exact .burst b hb hinside
  · next hinside => exact ⟨b, hb, Bool.eq_false_iff.2 hinside, rfl⟩

theorem State.lastLoadBurst_eq_some {b : Burst} (h : s.lastLoadBurst = some b) : s.fsc.burst = some b := by
  unfold State.lastLoadBurst at h
  split at h
  · next hb _ =>
    split at h
    · cases h; exact hb
    · cases h
  · cases h

theorem execBurstEnd_settles : s.Settles (execBurstEnd s) := by
  unfold execBurstEnd
  split
  · exact .refl s
  · next hb => exact endBurst_settles s hb

theorem execUploadComplete_settles : s.Settles (execUploadComplete s) := by
  unfold execUploadComplete
  split
  · exact .refl s
  · next hb => exact endBurst_settles s (s.lastLoadBurst_eq_some hb)

theorem execLineDue_answers (t : TileId) : s.Answers (execLineDue t s) := by
  simp only [execLineDue]
  split
  · exact .line t _
  · exact .refl s

/-- A row that is a port's own boundary where its cause is present, and nothing elsewhere. -/
theorem portBoundary_answers (t : TileId) (c : Prop) [Decidable c] :
    s.Answers (if c then .next (s.portBoundary t) else .next s) := by
  split
  · exact .portBoundary t
  · exact .refl s

theorem execTrainingAttemptFail_answers (t : TileId) : s.Answers (execTrainingAttemptFail t s) := by
  unfold execTrainingAttemptFail
  split
  · split
    · exact .refl s
    · exact .portBoundary t
  · exact .refl s

theorem execTileLost_answers (t : TileId) : s.Answers (execTileLost t s) := by
  unfold execTileLost
  split
  · exact portBoundary_answers s t _
  · exact .refl s

theorem execDrainEnd_answers (t : TileId) : s.Answers (execDrainEnd t s) := by
  unfold execDrainEnd
  split
  · exact .portBoundary t
  · exact .refl s

theorem execWarmUpExpiry_answers (t : TileId) : s.Answers (execWarmUpExpiry t s) := by
  unfold execWarmUpExpiry
  split
  · next h => exact .warmedUp t _ _ h
  · exact .refl s

theorem execBackChannelStatus_answers (t : TileId) (locked : Bool) (temperature : Temperature) :
    s.Answers (execBackChannelStatus t locked temperature s) := by
  simp only [execBackChannelStatus]
  split
  · next h => exact .status t locked temperature _ h
  · exact .refl s

/-- One record's end, where evaluation is not suspended. -/
theorem recordEnds_answers (id : PlacementId) (c : Prop) [Decidable c] :
    s.Answers (if s.csu.sync = .locked ∧ c then .next (s.evaluateWhere (fun i => i = id) s.csu.frame).retestRdy else .next s) := by
  split
  · next h => exact .recordEnds _ h.1
  · exact .refl s

theorem State.makesBoundaries_iff : s.makesBoundaries = true ↔ s.clc.straps.role = .master ∧ s.csu.timing = true := by
  simp [State.makesBoundaries]

theorem execMasterFrameBoundary_answers (others : Bool) : s.Answers (execMasterFrameBoundary others s) := by
  unfold execMasterFrameBoundary
  split
  · next h =>
    exact .masterBoundary _ (s.makesBoundaries_iff.1 h).1 fun hline => ((Bool.and_eq_true _ _).mp hline).1
  · exact .refl s

theorem execCommitTimeout_answers : s.Answers (execCommitTimeout s) := by
  unfold execCommitTimeout
  split
  · next h =>
    exact .masterBoundary false (s.makesBoundaries_iff.1 ((Bool.and_eq_true _ _).mp h).1).1 nofun
  · exact .refl s

theorem execFrameTrigger_answers : s.Answers (execFrameTrigger s) := by
  unfold execFrameTrigger
  split
  · next h => exact .frameTriggers _ _ (s.makesBoundaries_iff.1 h).1
  · exact .refl s

theorem execSyncWordArrival_answers (bytes : List Byte) : s.Answers (execSyncWordArrival bytes s) := by
  unfold execSyncWordArrival
  split
  · exact .refl s
  · next hrole =>
    split
    · exact .refl s
    · exact State.receiveWord_becomes _ hrole

theorem execSyncLoss_answers : s.Answers (execSyncLoss s) := by
  unfold execSyncLoss
  split
  · next hrole hsync _ => exact .losesSync _ hrole hsync
  · exact .refl s

theorem execWordOverdue_answers : s.Answers (execWordOverdue s) := by
  unfold execWordOverdue
  split
  · exact .retests _
  · exact .refl s

theorem execFreeRunBoundary_answers : s.Answers (execFreeRunBoundary s) := by
  unfold execFreeRunBoundary
  split
  · next h => exact .freeRuns _ _ h.1 h.2.1
  · exact .refl s

theorem execPacingWindow_answers : s.Answers (execPacingWindow s) := by
  unfold execPacingWindow
  split
  · exact .refl s
  · exact .window _

theorem execStartingEnd_answers : s.Answers (execStartingEnd s) := by
  unfold execStartingEnd
  split
  · next h => exact .startingEnds _ h.1
  · exact .refl s

theorem execRstAllAssert_answers : s.Answers (execRstAllAssert s) := by
  unfold execRstAllAssert
  split
  · exact .refl s
  · exact .fullReset s.clc.straps { s.pins with rstAll := true } s.startingEnd

theorem execRstAllRelease_answers (straps : Straps) : s.Answers (execRstAllRelease straps s) := by
  unfold execRstAllRelease
  split
  · exact .fullReset straps { s.pins with rstAll := false } (max s.startingEnd (s.now + longStart))
  · exact .refl s

theorem execRstKeepAssert_answers : s.Answers (execRstKeepAssert s) := by
  unfold execRstKeepAssert
  split
  · exact .refl s
  · exact .keepReset { s.pins with rstKeep := true } s.startingEnd

theorem execRstKeepRelease_answers : s.Answers (execRstKeepRelease s) := by
  unfold execRstKeepRelease
  split
  · exact .keepReset { s.pins with rstKeep := false } (max s.startingEnd (s.now + shortStart))
  · exact .refl s

/-- Every row but the two that end a burst answers a next state with one of the outcomes listed. -/
theorem exec_answers (i : Instr) (hburst : i ≠ .burstEnd) (hupload : i ≠ .uploadComplete) : s.Answers (exec i s) := by
  have command : ∀ (unit : Nat) (c : HostCmd), s.Answers (exec (c.toInstr unit) s) := fun unit c => by
    have h := exec_toInstr unit c s
    rw [h]
    exact exec_toInstr_becomes unit c s _ h
  cases i with
  | identify unit => exact command unit .identify
  | status unit => exact command unit .status
  | setTiming unit rate => exact command unit (.setTiming rate)
  | setGeometry unit w h gx gy => exact command unit (.setGeometry w h gx gy)
  | setTile unit t p c r tx ty => exact command unit (.setTile t p c r tx ty)
  | start unit => exact command unit .start
  | stop unit => exact command unit .stop
  | softReset unit => exact command unit .softReset
  | defineSurface unit id f w h c b k => exact command unit (.defineSurface id f w h c b k)
  | upload unit id off chunk => exact command unit (.upload id off chunk)
  | dropSurface unit id => exact command unit (.dropSurface id)
  | surfaceInfo unit id => exact command unit (.surfaceInfo id)
  | place unit id g v => exact command unit (.place id g v)
  | amend unit id v r => exact command unit (.amend id v r)
  | retire unit id => exact command unit (.retire id)
  | withdraw unit id => exact command unit (.withdraw id)
  | lookup unit id => exact command unit (.lookup id)
  | find unit x y => exact command unit (.find x y)
  | setGroup unit g k c e t m => exact command unit (.setGroup g k c e t m)
  | commit unit g => exact command unit (.commit g)
  | cancel unit g => exact command unit (.cancel g)
  | groupInfo unit g => exact command unit (.groupInfo g)
  | setBackground unit c => exact command unit (.setBackground c)
  | tilePower unit sel w u => exact command unit (.tilePower sel w u)
  | tileMode unit sel m f l => exact command unit (.tileMode sel m f l)
  | tileInfo unit t => exact command unit (.tileInfo t)
  | setBlackout unit m i => exact command unit (.setBlackout m i)
  | clearBlackout unit => exact command unit .clearBlackout
  | setPacing unit c => exact command unit (.setPacing c)
  | events unit => exact command unit .events
  | setEventEnables unit m => exact command unit (.setEventEnables m)
  | poll unit => exact command unit .poll
  | commandFrame bytes => exact State.takeTransfer_becomes bytes s
  | readTransfer unit complete => exact execReadTransfer_answers s unit complete
  | grantArrival => exact execGrantArrival_answers s
  | powerOn straps inputs =>
    exact .fullReset straps (s.pins.withInputs inputs) (max s.startingEnd (s.now + longStart))
  | rstAllAssert => exact execRstAllAssert_answers s
  | rstAllRelease straps => exact execRstAllRelease_answers s straps
  | rstKeepAssert => exact execRstKeepAssert_answers s
  | rstKeepRelease => exact execRstKeepRelease_answers s
  | startingEnd => exact execStartingEnd_answers s
  | masterFrameBoundary others => exact execMasterFrameBoundary_answers s others
  | commitTimeout => exact execCommitTimeout_answers s
  | frameTrigger => exact execFrameTrigger_answers s
  | syncWordArrival bytes => exact execSyncWordArrival_answers s bytes
  | syncLoss => exact execSyncLoss_answers s
  | freeRunBoundary => exact execFreeRunBoundary_answers s
  | wordOverdue => exact execWordOverdue_answers s
  | runExpiry id => exact recordEnds_answers s id _
  | fadeComplete id => exact recordEnds_answers s id _
  | preparationComplete => exact .prepares
  | lineDue tile => exact execLineDue_answers s tile
  | burstEnd => exact absurd rfl hburst
  | pacingWindow => exact execPacingWindow_answers s
  | uploadComplete => exact absurd rfl hupload
  | warmUpExpiry tile => exact execWarmUpExpiry_answers s tile
  | trainingAttemptFail tile => exact execTrainingAttemptFail_answers s tile
  | tileLost tile => exact execTileLost_answers s tile
  | drainEnd tile => exact execDrainEnd_answers s tile
  | backChannelStatus tile locked temperature => exact execBackChannelStatus_answers s tile locked temperature
  | cueEdge cue level held => exact execCueEdge_answers s cue level held
  | blackoutInputChange level held => exact execBlackoutInputChange_answers s level held
  | startComplete => exact execStartComplete_answers s

/-- Every row answers a next state with one of the outcomes listed, or faults on a burst outside the strapped store. -/
theorem exec_settles (i : Instr) : s.Settles (exec i s) := by
  by_cases hburst : i = .burstEnd
  · subst hburst
    exact execBurstEnd_settles s
  · by_cases hupload : i = .uploadComplete
    · subst hupload
      exact execUploadComplete_settles s
    · exact (exec_answers s i hburst hupload).settles

end

/-! ### What a step leaves -/

/-- A property that no quiet change and no row's outcome breaks is kept by every step. -/
theorem stepKeeps_of_becomes {P : State → Prop} (hquiet : ∀ s t : State, s.Quiet t → P s → P t)
    (hrow : ∀ s t : State, s.Becomes t → P s → P t) : StepKeeps P := by
  intro s t hs hstep
  unfold step at hstep
  split at hstep
  · cases hstep
    exact hquiet _ _ (s.quiet_atLeast _) hs
  · next i rest _ =>
    have hpop : P { s with pending := rest } := hquiet s _ ⟨rfl, rfl, rfl⟩ hs
    have hsettles := exec_settles { s with pending := rest } i
    rw [hstep] at hsettles
    exact hrow _ _ hsettles hpop

end Sys2Proof.Machine

/-! SUPPORT. The counts of the surfaces: what conserves them, what the chain's rows do to the records, and ReferencesKept. -/

namespace Sys2Proof.Machine

/-! ### What the invariants of surfaces, store and ports read -/

/-- `t` agrees with `s` in everything that the invariants of the surfaces, the frame store and the ports read. -/
structure State.SamePicture (s t : State) : Prop where
  tiles : t.tiles = s.tiles
  ports : t.ports = s.ports
  frames : t.frames = s.frames
  cmp : t.cmp = s.cmp
  sdir : t.sdir = s.sdir
  store : t.store = s.store
  ptab : t.ptab = s.ptab
  fetches : t.fsc.fetches = s.fsc.fetches
  upload : t.fsc.upload = s.fsc.upload
  burst : t.fsc.burst = s.fsc.burst
  straps : t.clc.straps = s.clc.straps
  job : t.clc.executing.map Executing.job = s.clc.executing.map Executing.job

theorem State.SamePicture.trans {s t u : State} (h : s.SamePicture t) (k : t.SamePicture u) : s.SamePicture u :=
  ⟨k.tiles.trans h.tiles, k.ports.trans h.ports, k.frames.trans h.frames, k.cmp.trans h.cmp, k.sdir.trans h.sdir,
    k.store.trans h.store, k.ptab.trans h.ptab, k.fetches.trans h.fetches, k.upload.trans h.upload, k.burst.trans h.burst,
    k.straps.trans h.straps, k.job.trans h.job⟩

/-- Changes of the fields beside the picture. -/
theorem State.samePicture_of_eq {s t : State} (h : t = { s with
    pending := t.pending, now := t.now, phase := t.phase, startingEnd := t.startingEnd, pins := t.pins, rate := t.rate
    rateNow := t.rateNow, geo := t.geo, held := t.held, links := t.links, bg := t.bg, bgNow := t.bgNow
    storeEpoch := t.storeEpoch, groups := t.groups, due := t.due, csu := t.csu, cvb := t.cvb, cbi := t.cbi, evb := t.evb
    freeCount := t.freeCount }) : s.SamePicture t := by
  rw [h]
  exact ⟨rfl, rfl, rfl, rfl, rfl, rfl, rfl, rfl, rfl, rfl, rfl, rfl⟩

theorem State.Quiet.samePicture {s t : State} (h : s.Quiet t) : s.SamePicture t := by
  obtain ⟨ht, hstraps, hjob⟩ := h
  constructor
  case straps => exact hstraps
  case job => exact hjob
  all_goals rw [ht]

theorem State.samePicture_retestRdy (s : State) : s.SamePicture s.retestRdy := State.samePicture_of_eq rfl
theorem State.samePicture_report (s : State) (d : Detail) : s.SamePicture (s.report d) := State.samePicture_of_eq rfl
theorem State.samePicture_handOver (s : State) (flag : Bool) (f : Frame) : s.SamePicture (s.handOver flag f) := State.samePicture_of_eq rfl
theorem State.samePicture_atLeast (s : State) (n : Nat) : s.SamePicture (s.atLeast n) := State.samePicture_of_eq rfl
theorem State.samePicture_adoptSequence (s : State) (w : SyncWord) : s.SamePicture (s.adoptSequence w) := State.samePicture_of_eq rfl
theorem State.samePicture_executeAbandon (s : State) (g : GroupId) : s.SamePicture (s.executeAbandon g) := State.samePicture_of_eq rfl
theorem State.samePicture_desync (s : State) (reason : DesyncReason) (w : SyncWord) (gs : List GroupId) :
    s.SamePicture (s.desync reason w gs) := State.samePicture_of_eq rfl
theorem State.samePicture_endComparison (s : State) : s.SamePicture s.endComparison := State.samePicture_of_eq rfl
theorem State.samePicture_countWord (s : State) (w : SyncWord) : s.SamePicture (s.countWord w) := State.samePicture_of_eq rfl

theorem State.samePicture_makeAllDue (s : State) (gs : List GroupId) : s.SamePicture (s.makeAllDue gs) :=
  State.samePicture_of_eq (by rw [s.makeAllDue_eq gs])

theorem State.samePicture_completePreparation (s : State) : s.SamePicture s.completePreparation := by
  unfold State.completePreparation
  split <;> exact State.samePicture_of_eq rfl

theorem State.samePicture_enterPhase (s : State) (p : Phase) : s.SamePicture (s.enterPhase p) := State.samePicture_of_eq rfl
theorem State.samePicture_beginStart (s : State) : s.SamePicture s.beginStart := State.samePicture_of_eq rfl

theorem State.samePicture_endStarting (s : State) : s.SamePicture s.endStarting := ⟨rfl, rfl, rfl, rfl, rfl, rfl, rfl, rfl, rfl, rfl, rfl, rfl⟩

theorem State.samePicture_takeCueEdge (s : State) (cue : CueId) (level : Bool) : s.SamePicture (s.takeCueEdge cue level) :=
  State.SamePicture.trans (State.SamePicture.trans (t := { s with cbi := { s.cbi with cue := s.cbi.cue.set cue (some level) } })
    (State.samePicture_of_eq rfl) (State.samePicture_makeAllDue _ _)) (State.samePicture_report _ _)

/-! ### Changes of many records -/

/-- A change of many records that accounts for every slot by a notice and gives no record values it did not hold (R51, R52). -/
def Conserves (f : PlacementId → Placement → Placement × List SurfaceId) : Prop :=
  ∀ i r, (∀ j, (f i r).1.slots.count j + (f i r).2.count j = r.slots.count j)
    ∧ ∀ v ∈ (f i r).1.valueSets, v ∈ r.valueSets

/-- A record's own values are among its sets of values. -/
theorem Placement.mem_valueSets_live {g : GroupId} {v : Values} {a b : Frame} {p : Option Pending} :
    v ∈ (Placement.live g v a b p).valueSets := by
  unfold Placement.valueSets
  split <;> simp_all

/-- A record left as it is. -/
theorem Placement.conserved_self (r : Placement) :
    (∀ j, r.slots.count j + ([] : List SurfaceId).count j = r.slots.count j) ∧ ∀ v ∈ r.valueSets, v ∈ r.valueSets :=
  ⟨fun _ => by simp, fun _ => id⟩

/-- A record that shows its own values alone afterwards, or nothing. -/
theorem Placement.conserved_of_valueSets {old new : Placement} {notices : List SurfaceId} {v : Values}
    (hslots : ∀ j, new.slots.count j + notices.count j = old.slots.count j) (hnew : new.valueSets = [v] ∨ new.valueSets = [])
    (hold : v ∈ old.valueSets) :
    (∀ j, new.slots.count j + notices.count j = old.slots.count j) ∧ ∀ w ∈ new.valueSets, w ∈ old.valueSets := by
  refine ⟨hslots, fun w hw => ?_⟩
  rcases hnew with h | h <;> rw [h] at hw
  · cases List.mem_singleton.1 hw
    exact hold
  · cases hw

theorem Placement.ended_conserves (f : Frame) (r : Placement) :
    (∀ j, (r.ended f).1.slots.count j + (r.ended f).2.count j = r.slots.count j)
      ∧ ∀ v ∈ (r.ended f).1.valueSets, v ∈ r.valueSets := by
  cases r with
  | live g v since valuesSince p =>
    simp only [Placement.ended]
    split
    · refine Placement.conserved_of_valueSets (v := v) (fun j => ?_) (.inl rfl) Placement.mem_valueSets_live
      simp only [Placement.slots, List.count_cons, List.count_nil]
      omega
    · exact Placement.conserved_self _
  | free => exact Placement.conserved_self _
  | staged _ _ => exact Placement.conserved_self _
  | fading _ _ _ _ _ => exact Placement.conserved_self _

theorem Placement.completed_conserves (f : Frame) (r : Placement) :
    (∀ j, (r.completed f).1.slots.count j + (r.completed f).2.count j = r.slots.count j)
      ∧ ∀ v ∈ (r.completed f).1.valueSets, v ∈ r.valueSets := by
  cases r with
  | fading g v since valuesSince start =>
    simp only [Placement.completed]
    split
    · exact Placement.conserved_of_valueSets (v := v) (fun j => by simp [Placement.slots]) (.inr rfl) List.mem_cons_self
    · exact Placement.conserved_self _
  | free => exact Placement.conserved_self _
  | staged _ _ => exact Placement.conserved_self _
  | live _ _ _ _ _ => exact Placement.conserved_self _

/-- An evaluation conserves the slots of the records it selects (R53 to R56). -/
theorem evaluationOf_conserves (sel : Selection) (f : Frame) : Conserves (evaluationOf sel f) := by
  intro i r
  unfold evaluationOf
  split
  · obtain ⟨hend, hendValues⟩ := r.ended_conserves f
    obtain ⟨hdone, hdoneValues⟩ := (r.ended f).1.completed_conserves f
    refine ⟨fun j => ?_, fun v hv => hendValues v (hdoneValues v hv)⟩
    have h1 := hend j
    have h2 := hdone j
    simp only [Placement.evaluated, List.count_append]
    omega
  · exact r.conserved_self

/-- A cut conserves the slots of the records it moves (R80 to R82). -/
theorem cutAt_conserves (g : GroupId) (f : Frame) : Conserves fun _ r => r.cutAt g f := by
  intro _ r
  cases r with
  | free => exact Placement.conserved_self _
  | fading _ _ _ _ _ => exact Placement.conserved_self _
  | staged h v =>
    simp only [Placement.cutAt]
    split
    · exact Placement.conserved_of_valueSets (v := v) (fun j => by simp [Placement.slots, Pending.surfaces]) (.inl rfl)
        List.mem_cons_self
    · exact Placement.conserved_self _
  | live h v since valuesSince p =>
    simp only [Placement.cutAt]
    split
    · match p with
      | none => exact Placement.conserved_self _
      | some (.replace new true) =>
        refine Placement.conserved_of_valueSets (v := new) (fun j => ?_) (.inl rfl) (by simp [Placement.valueSets])
        simp only [Placement.slots, Pending.surfaces, List.count_cons, List.count_nil]
        omega
      | some (.replace new false) =>
        have hnew : new ∈ (Placement.live h v since valuesSince (some (.replace new false))).valueSets := by simp [Placement.valueSets]
        simp only
        split_ifs
        · exact Placement.conserved_of_valueSets (v := new) (fun j => by simp [Placement.slots, Pending.surfaces]) (.inr rfl) hnew
        · refine Placement.conserved_of_valueSets (v := new) (fun j => ?_) (.inl rfl) hnew
          simp only [Placement.slots, Pending.surfaces, List.count_cons, List.count_nil]
          omega
        · refine Placement.conserved_of_valueSets (v := new) (fun j => ?_) (.inl rfl) hnew
          simp only [Placement.slots, Pending.surfaces, List.count_cons, List.count_nil]
          omega
      | some .retire =>
        simp only
        split
        · exact Placement.conserved_of_valueSets (v := v) (fun j => by simp [Placement.slots, Pending.surfaces]) (.inr rfl)
            Placement.mem_valueSets_live
        · exact Placement.conserved_of_valueSets (v := v) (fun j => by simp [Placement.slots, Pending.surfaces]) (.inl rfl)
            Placement.mem_valueSets_live
    · exact Placement.conserved_self _

/-! ### What the chain's rows do to the records -/

/-- `t` comes from `s` by conserving changes of the records and by changes beside the picture: what a boundary does before its end. -/
inductive State.Chained (s : State) : State → Prop where
  | refl : s.Chained s
  | same {t u : State} (h : s.Chained t) (k : t.SamePicture u) : s.Chained u
  | records {t : State} {f : PlacementId → Placement → Placement × List SurfaceId} (h : s.Chained t) (hf : Conserves f) :
      s.Chained (t.changeRecords f)

theorem State.SamePicture.chained {s t : State} (h : s.SamePicture t) : s.Chained t := .same .refl h

theorem State.Chained.trans {s t u : State} (h : s.Chained t) (k : t.Chained u) : s.Chained u := by
  induction k with
  | refl => exact h
  | same _ hsame ih => exact .same ih hsame
  | records _ hf ih => exact .records ih hf

/-- A property that neither kind of change breaks is kept. -/
theorem State.Chained.keeps {P : State → Prop} {s t : State} (h : s.Chained t) (hs : P s)
    (hsame : ∀ u v : State, u.SamePicture v → P u → P v)
    (hrecords : ∀ (u : State) (f : PlacementId → Placement → Placement × List SurfaceId), Conserves f → P u → P (u.changeRecords f)) :
    P t := by
  induction h with
  | refl => exact hs
  | same _ hk ih => exact hsame _ _ hk ih
  | records _ hf ih => exact hrecords _ _ hf ih

section
variable (s : State)

theorem State.executeCut_chained (g : GroupId) (f : Frame) : s.Chained (s.executeCut g f) :=
  .same (.records .refl (cutAt_conserves g f)) (State.samePicture_of_eq rfl)

theorem State.evaluateWhere_chained (sel : Selection) (f : Frame) : s.Chained (s.evaluateWhere sel f) :=
  .same (.records .refl (evaluationOf_conserves sel f)) (State.samePicture_of_eq rfl)

theorem State.evaluate_chained : s.Chained s.evaluate := by
  rcases s.evaluate_cases with ⟨_, h⟩ | ⟨_, h⟩ <;> rw [h]
  · exact s.evaluateWhere_chained _ _
  · exact .refl

theorem State.checkSequence_chained (w : SyncWord) (f : Frame) : s.Chained (s.checkSequence w f) := by
  unfold State.checkSequence
  split
  · split
    · exact .refl
    · split
      · exact .refl
      · exact (s.samePicture_executeAbandon _).chained
  · split
    · exact s.executeCut_chained _ _
    · exact (State.samePicture_of_eq rfl).chained

theorem State.takeNominate_chained (g : GroupId) (w : SyncWord) : s.Chained (s.takeNominate g w) := by
  unfold State.takeNominate
  split <;> exact (State.samePicture_of_eq rfl).chained

theorem State.takeAbandon_chained (g : GroupId) : s.Chained (s.takeAbandon g) := by
  unfold State.takeAbandon
  split
  · exact (s.samePicture_executeAbandon _).chained
  · split
    · split
      · exact (s.samePicture_executeAbandon _).chained
      · exact .refl
    · exact .refl
  · exact .refl
  · exact .refl
  · exact .refl

theorem State.actOn_chained (w : SyncWord) (f : Frame) : s.Chained (s.actOn w f) := by
  unfold State.actOn
  split
  · exact s.checkSequence_chained w f
  · exact (s.checkSequence_chained w f).trans (State.takeNominate_chained _ _ _)
  · refine .same (.trans ?_ (State.executeCut_chained _ _ _)) (State.samePicture_adoptSequence _ _)
    split
    · exact .refl
    · exact (s.samePicture_desync _ _ _).chained
  · exact (s.checkSequence_chained w f).trans (State.takeAbandon_chained _ _)

theorem State.compareLost_chained (w : SyncWord) : s.Chained (s.compareLost w) := by
  unfold State.compareLost
  split
  · split
    · exact .refl
    · exact (State.samePicture_of_eq rfl).chained
  · split
    · exact (s.samePicture_executeAbandon _).chained
    · split
      · split
        · exact s.executeCut_chained _ _
        · exact (State.samePicture_of_eq rfl).chained
      · exact (State.samePicture_of_eq rfl).chained

theorem State.compareAtRelock_chained (was : SyncState) (w : SyncWord) : s.Chained (s.compareAtRelock was w) := by
  unfold State.compareAtRelock
  split
  · exact s.compareLost_chained w
  · exact (s.samePicture_adoptSequence w).chained
  · exact .refl

theorem State.actAtRelock_chained (w : SyncWord) : s.Chained (s.actAtRelock w) := by
  unfold State.actAtRelock
  split
  · exact .refl
  · exact s.takeNominate_chained _ _
  · exact .refl
  · exact s.takeAbandon_chained _

theorem State.holdThroughLoss_chained : s.Chained s.holdThroughLoss := by
  unfold State.holdThroughLoss
  split
  · exact .refl
  · split
    · split
      · exact .refl
      · exact (State.samePicture_of_eq rfl).chained
    · exact (s.samePicture_executeAbandon _).chained

/-- What follows the word and the evaluation at every boundary before its end. -/
theorem State.Chained.handedOver {s t : State} (h : s.Chained t) (flag : Bool) (f : Frame) :
    s.Chained (((t.evaluate).retestRdy).handOver flag f) :=
  .same (.same (h.trans t.evaluate_chained) (State.samePicture_retestRdy _)) (State.samePicture_handOver _ _ _)

theorem State.takeWord_chained (w : SyncWord) : ∃ u, s.Chained u ∧ s.takeWord w = u.closeBoundary := by
  refine ⟨_, State.Chained.handedOver (.trans (t := ((s.checkFrame w).beginFrame w.frame).restartLossTimer) ?_
    (State.actOn_chained _ _ _)) _ _, rfl⟩
  unfold State.checkFrame
  split <;> exact (State.samePicture_of_eq rfl).chained

theorem State.masterBoundary_chained (line : Bool) : ∃ u, s.Chained u ∧ s.masterBoundary line = u.closeBoundary :=
  ⟨_, State.Chained.handedOver (.same (.trans (State.samePicture_of_eq rfl).chained (State.actOn_chained _ _ _))
    (State.samePicture_makeAllDue _ _)) _ _, rfl⟩

theorem State.relock_chained (w : SyncWord) : ∃ u, s.Chained u ∧ s.relock w = u.closeBoundary := by
  refine ⟨_, .same (.same (.trans (.trans (.same (.trans ?_ (State.compareAtRelock_chained _ _ _)) (State.samePicture_endComparison _))
    (State.evaluate_chained _)) (State.actAtRelock_chained _ _)) (State.samePicture_retestRdy _)) (State.samePicture_handOver _ _ _), rfl⟩
  exact (State.samePicture_of_eq rfl).chained

theorem State.loseSync_chained : ∃ u, s.Chained u ∧ s.loseSync = u.closeBoundary :=
  ⟨_, .same (.trans (State.samePicture_of_eq rfl).chained (State.holdThroughLoss_chained _)) (State.samePicture_retestRdy _), rfl⟩

end

/-- What a row makes of the surfaces, the frame store and the ports: the outcomes of `State.Becomes` that read alike there taken
together. -/
inductive State.Draws (s : State) : State → Prop where
  | chained {t : State} (h : s.Chained t) : s.Draws t
  | closes {t : State} (h : s.Chained t) : s.Draws t.closeBoundary
  | command {u v : State} {r : Result} (code : Nat) (broadcast : Bool) (hidle : s.clc.executing = none) (hsame : s.SamePicture u)
      (h : u.ByCommand v r) : s.Draws (State.finish code broadcast (v, r))
  | fullReset (straps : Straps) (pins : Pins) (startingEnd : Nat) : s.Draws (s.afterFullReset straps pins startingEnd)
  | keepReset (pins : Pins) (startingEnd : Nat) : s.Draws { State.keepValues { s with pins := pins } with startingEnd := startingEnd }
  | running (e : Executing) (he : s.clc.executing = some e) (hjob : e.job = .start) :
      s.Draws ((s.enterPhase .running).returnResult .ok .empty)
  | line (t : TileId) (n : Nat) : s.Draws ((((s.atLeast n).sendDueLine t (s.frames.get t).nextLine).advanceLine t).requestLine t
      ((s.frames.get t).nextLine + 1)).grant
  | burst (b : Burst) (hb : s.fsc.burst = some b) (hinside : s.burstInside b = true) : s.Draws (s.endBurst b)
  | window (n : Nat) : s.Draws { s.atLeast n with fsc := s.fsc.newWindow }.grant
  | warmedUp (t : TileId) (n endsAt : Nat) (h : (s.ports.get t).state = .powering endsAt) :
      s.Draws ((s.atLeast n).changePort t ((s.ports.get t).enter (.training 1 0), [.training 1 0]))
  | portBoundary (t : TileId) : s.Draws (s.portBoundary t)
  | status (t : TileId) (locked : Bool) (temperature : Temperature) (hot : List Detail) (h : (s.ports.get t).state.takesStatus = true) :
      s.Draws ((s.changePort t ((s.ports.get t).afterStatus locked temperature)).reportAll hot)

theorem State.Becomes.draws {s t : State} (h : s.Becomes t) : s.Draws t := by
  cases h with
  | quiet h => exact .chained h.samePicture.chained
  | command code broadcast _ hidle hq h => exact .command code broadcast hidle hq.samePicture h
  | fullReset straps pins e => exact .fullReset straps pins e
  | keepReset pins e => exact .keepReset pins e
  | startingEnds n => exact .chained (.same (s.samePicture_atLeast n).chained (State.samePicture_endStarting _))
  | running e he hjob => exact .running e he hjob
  | masterBoundary line =>
    obtain ⟨u, hu, h⟩ := s.masterBoundary_chained line
    exact h ▸ .closes hu
  | frameTriggers n f => exact .chained (.same (s.samePicture_atLeast n).chained (State.samePicture_makeAllDue _ _))
  | losesCount => exact .chained (State.samePicture_of_eq rfl).chained
  | takesWord w =>
    obtain ⟨u, hu, h⟩ := s.takeWord_chained w
    exact h ▸ .closes hu
  | countsWord w => exact .chained (.same (s.samePicture_countWord w).chained (State.samePicture_handOver _ _ _))
  | relocks w =>
    obtain ⟨u, hu, h⟩ := (s.countWord w).relock_chained w
    exact h ▸ .closes ((s.samePicture_countWord w).chained.trans hu)
  | losesSync n =>
    obtain ⟨u, hu, h⟩ := (s.atLeast n).loseSync_chained
    exact h ▸ .closes ((s.samePicture_atLeast n).chained.trans hu)
  | freeRuns n f => exact .closes (State.samePicture_of_eq rfl).chained
  | retests n => exact .chained (State.samePicture_of_eq rfl).chained
  | recordEnds sel => exact .chained (.same (s.evaluateWhere_chained _ _) (State.samePicture_retestRdy _))
  | prepares => exact .chained s.samePicture_completePreparation.chained
  | line t n => exact .line t n
  | burst b hb hinside => exact .burst b hb hinside
  | window n => exact .window n
  | warmedUp t n endsAt h => exact .warmedUp t n endsAt h
  | portBoundary t => exact .portBoundary t
  | status t locked temperature hot h => exact .status t locked temperature hot h
  | cueEdge cue level seen n =>
    have hmoved : s.SamePicture ((s.setCuePin cue level).atLeast n) := State.samePicture_of_eq rfl
    exact .chained (.same hmoved.chained (State.samePicture_takeCueEdge _ _ _))

/-- A property that no change beside the picture and no such outcome breaks is kept by every step. -/
theorem stepKeeps_of_draws {P : State → Prop} (hsame : ∀ s t : State, s.SamePicture t → P s → P t)
    (hrow : ∀ s t : State, s.Draws t → P s → P t) : StepKeeps P :=
  stepKeeps_of_becomes (fun s t h => hsame s t h.samePicture) fun s t h => hrow s t h.draws

/-! ### Fields that the end of a boundary and other rows leave -/

section
variable (s : State)

theorem State.closeBoundary_sdir : s.closeBoundary.sdir = s.sdir := by rw [s.closeBoundary_eq]
theorem State.closeBoundary_ptab : s.closeBoundary.ptab = s.ptab := by rw [s.closeBoundary_eq]
theorem State.closeBoundary_store : s.closeBoundary.store = s.store := by rw [s.closeBoundary_eq]
theorem State.closeBoundary_clc : s.closeBoundary.clc = s.clc := by rw [s.closeBoundary_eq]

/-- Sending a line changes the link, the lines formed and sent, the store controller and the events (R145). -/
theorem State.sendDueLine_eq (t : TileId) (py : Nat) : s.sendDueLine t py = { s with
    links := (s.sendDueLine t py).links, cmp := (s.sendDueLine t py).cmp, fsc := (s.sendDueLine t py).fsc
    evb := (s.sendDueLine t py).evb } := by
  simp only [State.sendDueLine]
  split
  · split <;> rfl
  all_goals rfl

end

end Sys2Proof.Machine

/-! SUPPORT. Every step keeps the reference counts: ReferencesKept. -/

namespace Sys2Proof.Machine

/-- The counts read the surface directory and the placement table alone. -/
theorem State.RefsInv.congr {s t : State} (h : s.RefsInv) (hsdir : t.sdir = s.sdir) (hptab : t.ptab = s.ptab) : t.RefsInv := by
  unfold State.RefsInv State.slotCount State.surface at *
  rw [hsdir, hptab]
  exact h

/-- The counts where the slots of every surface are as they were and no surface has become EMPTY. -/
theorem State.RefsInv.of_counts {s t : State} (h : s.RefsInv) (hrefs : ∀ i, (t.sdir.get i).refs = t.slotCount i)
    (hempty : ∀ i, t.surface i = .empty → s.surface i = .empty) (hslots : ∀ i, t.surface i = .empty → t.slotCount i ≤ s.slotCount i) :
    t.RefsInv :=
  ⟨hrefs, fun i hi => Nat.eq_zero_of_le_zero (h.2 i (hempty i hi) ▸ hslots i hi)⟩

/-! ### Placement commands -/

theorem State.nameAll_ptab (is : List SurfaceId) (s : State) : (s.nameAll is).ptab = s.ptab := by
  induction is generalizing s with
  | nil => rfl
  | cons i is ih => exact (ih (s.nameSurface i)).trans (State.nameSurface_ptab s i)

theorem State.unnameAll_ptab (is : List SurfaceId) (s : State) : (s.unnameAll is).ptab = s.ptab := by
  induction is generalizing s with
  | nil => rfl
  | cons i is ih => exact (ih (s.unnameSurface i)).trans (State.unnameSurface_ptab s i)

/-- Name notices raise a surface's count by their number (R31). -/
theorem State.nameAll_get (is : List SurfaceId) (s : State) (j : SurfaceId) :
    (s.nameAll is).sdir.get j = { s.sdir.get j with refs := (s.sdir.get j).refs + is.count j } := by
  induction is generalizing s with
  | nil => rfl
  | cons i is ih =>
    refine (ih (s.nameSurface i)).trans ?_
    rw [State.nameSurface_sdir, Table.get_modify, List.count_cons]
    by_cases h : i = j
    · simp only [h, if_true, beq_self_eq_true, SurfaceRec.mk.injEq, true_and]
      omega
    · simp [h]

/-- Unname notices lower a surface's count by their number (R31). -/
theorem State.unnameAll_get (is : List SurfaceId) (s : State) (j : SurfaceId) :
    (s.unnameAll is).sdir.get j = { s.sdir.get j with refs := (s.sdir.get j).refs - is.count j } := by
  induction is generalizing s with
  | nil => rfl
  | cons i is ih =>
    refine (ih (s.unnameSurface i)).trans ?_
    rw [State.unnameSurface_sdir, Table.get_modify, List.count_cons]
    by_cases h : i = j
    · simp only [h, if_true, beq_self_eq_true, SurfaceRec.mk.injEq, true_and]
      omega
    · simp [h]

section
variable {s : State} {i : PlacementId} {r : Placement} {dropped named : List SurfaceId}

theorem State.rewrite_ptab : (s.rewrite i r dropped named).ptab = s.ptab.set i r := by
  rw [State.rewrite, State.nameAll_ptab, State.unnameAll_ptab]
  rfl

theorem State.rewrite_get (j : SurfaceId) : (s.rewrite i r dropped named).sdir.get j
    = { s.sdir.get j with refs := (s.sdir.get j).refs - dropped.count j + named.count j } := by
  rw [State.rewrite, State.nameAll_get, State.unnameAll_get]
  rfl

theorem State.rewrite_surface (j : SurfaceId) : (s.rewrite i r dropped named).surface j = s.surface j := by
  rw [State.surface, State.rewrite_get]
  rfl

/-- What a surface that has passed the tests of R45 is. -/
theorem State.checkValues_surface {raw : RawValues} {v : Values} (h : s.checkValues raw = .ok v) :
    ∃ d, (s.surface v.surface).desc = some d := by
  unfold State.checkValues at h
  split at h
  · split at h
    · cases h
    · next hd =>
      split at h
      · cases h
      · split at h
        · cases h
        · split at h
          · cases h
            exact ⟨_, hd⟩
          · cases h
  · cases h

theorem State.Rewrites.refsInv (h : s.Rewrites i r dropped named) (hs : s.RefsInv) : (s.rewrite i r dropped named).RefsInv := by
  have hcount : ∀ j, (s.rewrite i r dropped named).slotCount j + dropped.count j = s.slotCount j + named.count j := fun j => by
    have hset := Table.count_set Placement.slots s.ptab i r j
    have hslots := h.slots j
    simp only [State.slotCount, State.rewrite_ptab]
    omega
  have hold : ∀ j, (s.ptab.get i).slots.count j ≤ s.slotCount j := fun j => by
    have hset := Table.count_set Placement.slots s.ptab i .free j
    rw [Placement.slots_free, List.count_nil] at hset
    rw [State.slotCount]
    omega
  refine hs.of_counts (fun j => ?_) (fun j hj => by rwa [State.rewrite_surface] at hj) fun j hj => ?_
  · have hj := hcount j
    have hdropped := Nat.le_trans (h.dropped j) (hold j)
    rw [State.rewrite_get]
    simp only [hs.1 j]
    omega
  · have hnone : named.count j = 0 := List.count_eq_zero.2 fun hmem => by
      obtain ⟨raw, v, hv, rfl⟩ := h.named j hmem
      obtain ⟨d, hd⟩ := State.checkValues_surface hv
      rw [State.rewrite_surface] at hj
      rw [hj] at hd
      cases hd
    have := hcount j
    omega

end

/-! ### Surface commands -/

/-- A surface that no slot names may become EMPTY; any other state leaves the counts in order. -/
theorem State.RefsInv.setSurface {s : State} (hs : s.RefsInv) {i : SurfaceId} {st : SurfaceState}
    (h : st = .empty → s.surface i = .empty ∨ (s.sdir.get i).refs = 0) : (s.setSurface i st).RefsInv := by
  have hget : ∀ j, (s.setSurface i st).sdir.get j = if i = j then { s.sdir.get j with state := st } else s.sdir.get j :=
    fun j => by rw [State.setSurface_sdir, Table.get_modify]
  refine ⟨fun j => ?_, fun j hj => ?_⟩
  · rw [hget]
    split <;> exact hs.1 j
  · rw [State.surface, hget] at hj
    split at hj
    · next he =>
      subst he
      rcases h hj with h | h
      · exact hs.2 i h
      · exact (hs.1 i).symm.trans h
    · exact hs.2 j hj

/-! ### Many records -/

/-- A conserving change moves a surface's slots to its notices. -/
theorem Conserves.slotCount {f : PlacementId → Placement → Placement × List SurfaceId} (hf : Conserves f) (s : State) (j : SurfaceId) :
    (s.changeRecords f).slotCount j + (s.noticesOf f).count j = s.slotCount j := by
  have hsum : ∀ l : List PlacementId,
      (l.flatMap fun i => (f i (s.ptab.get i)).1.slots).count j + (l.flatMap fun i => (f i (s.ptab.get i)).2).count j
        = (l.flatMap fun i => (s.ptab.get i).slots).count j := by
    intro l
    induction l with
    | nil => rfl
    | cons i l ih =>
      have := (hf i (s.ptab.get i)).1 j
      simp only [List.flatMap_cons, List.count_append]
      omega
  simp only [State.slotCount, Table.count_flatMap, State.changeRecords_get]
  exact hsum _

theorem State.RefsInv.changeRecords {s : State} (hs : s.RefsInv) {f : PlacementId → Placement → Placement × List SurfaceId}
    (hf : Conserves f) : (s.changeRecords f).RefsInv := by
  refine hs.of_counts (fun j => ?_) (fun j hj => ?_) fun j _ => ?_
  · have := hf.slotCount s j
    rw [State.changeRecords_refs]
    simp only [hs.1 j]
    omega
  · rw [State.surface, State.changeRecords_refs] at hj
    exact hj
  · have := hf.slotCount s j
    omega

theorem State.RefsInv.chained {s t : State} (hs : s.RefsInv) (h : s.Chained t) : t.RefsInv :=
  h.keeps hs (fun _ _ hsame hu => hu.congr hsame.sdir hsame.ptab) fun _ _ hf hu => hu.changeRecords hf

/-! ### Every outcome -/

/-- Where every record is FREE and no surface is named the counts are in order. -/
theorem State.refsInv_of_free {s : State} (hptab : s.ptab = Table.replicate 128 .free) (hrefs : ∀ i, (s.sdir.get i).refs = 0) :
    s.RefsInv := by
  have hcount : ∀ i, s.slotCount i = 0 := fun i => by
    rw [State.slotCount, Table.count_flatMap, hptab]
    refine List.count_eq_zero.2 fun hmem => ?_
    obtain ⟨j, _, hj⟩ := List.mem_flatMap.1 hmem
    rw [Table.get_replicate] at hj
    cases hj
  exact ⟨fun i => (hrefs i).trans (hcount i).symm, fun i _ => hcount i⟩

theorem SurfaceRec.kept_refs (r : SurfaceRec) : r.kept.refs = 0 := by
  unfold SurfaceRec.kept
  split <;> rfl

theorem State.refsInv_keepValues (s : State) : s.keepValues.RefsInv :=
  State.refsInv_of_free rfl fun i => by
    simp only [State.keepValues, Table.get_mapIdx]
    exact SurfaceRec.kept_refs _

theorem State.refsInv_afterFullReset (s : State) (straps : Straps) (pins : Pins) (e : Nat) : (s.afterFullReset straps pins e).RefsInv :=
  State.refsInv_of_free rfl fun i => by
    show (State.reset.sdir.get i).refs = 0
    simp [State.reset]

/-- The link's answer leaves the surfaces and the records. -/
theorem State.finish_sdir_ptab (code : Nat) (broadcast : Bool) (r : State × Result) :
    (State.finish code broadcast r).sdir = r.1.sdir ∧ (State.finish code broadcast r).ptab = r.1.ptab := by
  unfold State.finish
  split <;> exact ⟨rfl, rfl⟩

theorem State.RefsInv.byCommand {s t : State} {r : Result} (hs : s.RefsInv) (h : s.ByCommand t r) : t.RefsInv := by
  cases h with
  | answers _ _ h => exact hs.congr h.samePicture.sdir h.samePicture.ptab
  | power ts on warmUp =>
    cases warmUp <;> exact hs.congr (State.switchPorts_sdir _ _ _) (State.switchPorts_ptab _ _ _)
  | resets => exact (s.refsInv_keepValues).congr (State.startingFor_sdir _ _) (State.startingFor_ptab _ _)
  | defines i d => exact hs.setSurface nofun
  | drops i _ _ hrefs => exact hs.setSurface fun _ => .inr (Nat.eq_zero_of_not_pos hrefs)
  | rewrites i r dropped named _ _ h => exact h.refsInv hs
  | uploads => exact hs.congr (State.handOverUpload_sdir _ _) (State.handOverUpload_ptab _ _)
  | makesDue => exact hs.congr (State.makeDue_sdir _ _) (State.makeDue_ptab _ _)
  | withdraws => exact hs.congr (State.withdrawGroup_sdir _ _) (State.withdrawGroup_ptab _ _)
  | starts => exact hs.congr s.samePicture_beginStart.sdir s.samePicture_beginStart.ptab
  | tiles => exact hs.congr rfl rfl
  | stops => exact hs.congr rfl rfl
  | setsGroup => exact hs.congr rfl rfl
  | arms => exact hs.congr rfl rfl

/-- A surface after more of its bytes is EMPTY where it was. -/
theorem SurfaceState.loadedMore_eq_empty {taken : Nat} {st : SurfaceState} (h : st.loadedMore taken = .empty) : st = .empty := by
  cases st with
  | empty => rfl
  | loading d loaded =>
    simp only [SurfaceState.loadedMore] at h
    split at h <;> cases h
  | ready d => cases h

/-- The link's answer of the executing command leaves the surfaces and the records. -/
theorem State.returnResult_sdir_ptab (status : Status) (payload : Payload) (s : State) :
    (s.returnResult status payload).sdir = s.sdir ∧ (s.returnResult status payload).ptab = s.ptab := by
  unfold State.returnResult
  split <;> exact ⟨rfl, rfl⟩

theorem State.RefsInv.completeUpload {s : State} (hs : s.RefsInv) : s.completeUpload.RefsInv := by
  simp only [State.completeUpload]
  split
  · next i taken _ =>
    have hmoved : (State.setSurface i ((s.surface i).loadedMore taken) { s with fsc := s.fsc.endUpload }).RefsInv :=
      (hs.congr (t := { s with fsc := s.fsc.endUpload }) rfl rfl).setSurface fun h => .inl (SurfaceState.loadedMore_eq_empty h)
    obtain ⟨hsdir, hptab⟩ := State.returnResult_sdir_ptab .ok
      (.uploaded taken ((s.surface i).loadedMore taken).loadedCount)
      (if ((s.surface i).loadedMore taken).isReady = true then
        (((State.setSurface i ((s.surface i).loadedMore taken) { s with fsc := s.fsc.endUpload }).report (.surfaceReady i)).retestRdy)
      else State.setSurface i ((s.surface i).loadedMore taken) { s with fsc := s.fsc.endUpload })
    refine hmoved.congr (hsdir.trans ?_) (hptab.trans ?_)
    all_goals split <;> rfl
  · exact hs.congr rfl rfl
  · exact hs.congr rfl rfl

/-- A fetch burst's end leaves the surfaces and the records. -/
theorem State.fetchBurstDone_sdir_ptab (t : TileId) (s : State) :
    (s.fetchBurstDone t).sdir = s.sdir ∧ (s.fetchBurstDone t).ptab = s.ptab := by
  unfold State.fetchBurstDone
  split <;> exact ⟨rfl, rfl⟩

theorem State.RefsInv.loadBurstDone {s : State} (hs : s.RefsInv) (b : Burst) : (s.loadBurstDone b).RefsInv := by
  simp only [State.loadBurstDone]
  split
  · exact hs
  · split
    · refine State.RefsInv.completeUpload ?_
      exact hs.congr rfl rfl
    · exact hs.congr rfl rfl

theorem State.RefsInv.endBurst {s : State} (hs : s.RefsInv) (b : Burst) : (s.endBurst b).RefsInv := by
  have hfreed : State.RefsInv { s.atLeast b.endsAt with fsc := { s.fsc with burst := none } } := hs.congr rfl rfl
  simp only [State.endBurst]
  split
  · obtain ⟨hsdir, hptab⟩ := State.fetchBurstDone_sdir_ptab _ { s.atLeast b.endsAt with fsc := { s.fsc with burst := none } }
    exact hfreed.congr ((State.grant_sdir _).trans hsdir) ((State.grant_ptab _).trans hptab)
  · exact hfreed.congr rfl rfl
  · exact (hfreed.loadBurstDone b).congr rfl rfl

theorem State.RefsInv.draws {s t : State} (hs : s.RefsInv) (h : s.Draws t) : t.RefsInv := by
  cases h with
  | chained h => exact hs.chained h
  | closes h => exact (hs.chained h).congr (State.closeBoundary_sdir _) (State.closeBoundary_ptab _)
  | command code broadcast _ hsame h =>
    obtain ⟨hsdir, hptab⟩ := State.finish_sdir_ptab code broadcast (_, _)
    exact ((hs.congr hsame.sdir hsame.ptab).byCommand h).congr hsdir hptab
  | fullReset straps pins e => exact s.refsInv_afterFullReset straps pins e
  | keepReset pins e => exact (State.refsInv_keepValues { s with pins := pins }).congr rfl rfl
  | running e he hjob =>
    obtain ⟨hsdir, hptab⟩ := State.returnResult_sdir_ptab .ok .empty (s.enterPhase .running)
    exact hs.congr hsdir hptab
  | line t n =>
    refine hs.congr ?_ ?_
    all_goals
      simp only [State.grant_sdir, State.grant_ptab, State.requestLine_sdir, State.requestLine_ptab, State.advanceLine_sdir,
        State.advanceLine_ptab]
      rw [State.sendDueLine_eq]
      rfl
  | burst b => exact hs.endBurst b
  | window n => exact hs.congr rfl rfl
  | warmedUp t n endsAt h => exact hs.congr (State.changePort_sdir _ _ _) (State.changePort_ptab _ _ _)
  | portBoundary t => exact hs.congr rfl rfl
  | status t locked temperature hot h => exact hs.congr rfl rfl

/-- A record names at most two surfaces. -/
theorem Placement.slots_length (r : Placement) : r.slots.length ≤ 2 := by
  cases r with
  | live g v a b p =>
    simp only [Placement.slots, List.length_cons]
    unfold Pending.surfaces
    split <;> simp
  | _ => simp [Placement.slots]

/-- 128 records of two slots name no surface more than 256 times. -/
theorem State.slotCount_le (s : State) (i : SurfaceId) : s.slotCount i ≤ 256 := by
  have hlen : ∀ l : List Placement, (l.flatMap Placement.slots).length ≤ 2 * l.length := by
    intro l
    induction l with
    | nil => simp
    | cons r l ih =>
      have := r.slots_length
      simp only [List.flatMap_cons, List.length_append, List.length_cons]
      omega
  have hrows := hlen s.ptab.rows
  rw [s.ptab.len] at hrows
  exact Nat.le_trans List.count_le_length hrows

/-- Settles O54: every outcome of a row conserves the slots and their counts; 128 records hold at most 256 slots. -/
theorem referencesKept : Obligations.ReferencesKept := by
  unfold Obligations.ReferencesKept
  refine ⟨stepKeeps_of_draws (fun _ _ h hs => hs.congr h.sdir h.ptab) fun _ _ h hs => hs.draws h, fun s i hs => ?_⟩
  rw [hs.1 i]
  exact s.slotCount_le i

end Sys2Proof.Machine

/-! SUPPORT. The end of a burst and of an upload write, field by field; every step keeps surfaces apart and the store canonical. -/

namespace Sys2Proof.Machine

/-! ### The end of an upload write and of a burst -/

section
variable (s : State)

/-- The link's answer of the executing command moves the link alone, and not its straps. -/
theorem State.returnResult_eq (status : Status) (payload : Payload) :
    s.returnResult status payload = { s with clc := (s.returnResult status payload).clc }
      ∧ (s.returnResult status payload).clc.straps = s.clc.straps ∧ (s.returnResult status payload).clc.executing = none := by
  unfold State.returnResult
  split
  · next h => exact ⟨rfl, rfl, h⟩
  · exact ⟨rfl, rfl, rfl⟩

/-- An upload write that ends while its UPLOAD executes: the surface has loaded more, RDY is re-tested where it becomes READY, and the
result returns (R28). -/
theorem State.completeUpload_upload {e : Executing} {i : SurfaceId} {taken : Nat} (he : s.clc.executing = some e)
    (hjob : e.job = .upload i taken) :
    s.completeUpload =
      (if ((s.surface i).loadedMore taken).isReady then
        ((State.setSurface i ((s.surface i).loadedMore taken) { s with fsc := s.fsc.endUpload }).report (.surfaceReady i)).retestRdy
      else State.setSurface i ((s.surface i).loadedMore taken) { s with fsc := s.fsc.endUpload }).returnResult .ok
        (.uploaded taken ((s.surface i).loadedMore taken).loadedCount) := by
  simp only [State.completeUpload, he, Option.map_some, hjob]

/-- An upload write that ends while no UPLOAD executes. -/
theorem State.completeUpload_other (h : ∀ e i taken, s.clc.executing = some e → e.job ≠ .upload i taken) :
    s.completeUpload = { s with fsc := s.fsc.endUpload } := by
  simp only [State.completeUpload]
  split
  · next hj =>
    obtain ⟨e, he, hjob⟩ := Option.map_eq_some_iff.1 hj
    exact absurd hjob (h e _ _ he)
  · rfl
  · rfl

/-- Whether an UPLOAD executes. -/
theorem State.uploadJob_cases : (∃ e i taken, s.clc.executing = some e ∧ e.job = .upload i taken)
    ∨ ∀ e i taken, s.clc.executing = some e → e.job ≠ .upload i taken := by
  by_cases h : ∃ e i taken, s.clc.executing = some e ∧ e.job = .upload i taken
  · exact .inl h
  · exact .inr fun e i taken he hjob => h ⟨e, i, taken, he, hjob⟩

/-- What the end of an upload write may change (R28). -/
theorem State.completeUpload_eq : s.completeUpload = { s with
    clc := s.completeUpload.clc, sdir := s.completeUpload.sdir, csu := s.completeUpload.csu, evb := s.completeUpload.evb
    fsc := s.fsc.endUpload } ∧ s.completeUpload.clc.straps = s.clc.straps := by
  have answered : ∀ (w : State) (p : Payload),
      w = { s with sdir := w.sdir, csu := w.csu, evb := w.evb, fsc := s.fsc.endUpload } →
      w.returnResult .ok p = { s with
        clc := (w.returnResult .ok p).clc, sdir := (w.returnResult .ok p).sdir, csu := (w.returnResult .ok p).csu
        evb := (w.returnResult .ok p).evb, fsc := s.fsc.endUpload } ∧ (w.returnResult .ok p).clc.straps = s.clc.straps := by
    intro w p hw
    obtain ⟨heq, hstraps, _⟩ := w.returnResult_eq .ok p
    generalize w.returnResult .ok p = v at heq hstraps ⊢
    refine ⟨?_, hstraps.trans (by rw [hw])⟩
    rw [heq, hw]
  rcases s.uploadJob_cases with ⟨e, i, taken, he, hjob⟩ | h
  · rw [s.completeUpload_upload he hjob]
    exact answered _ _ (by split <;> rfl)
  · rw [s.completeUpload_other h]
    exact ⟨rfl, rfl⟩

theorem State.setSurface_surface (i j : SurfaceId) (st : SurfaceState) :
    (s.setSurface i st).surface j = if i = j then st else s.surface j := by
  rw [State.surface, State.setSurface_sdir, Table.get_modify]
  split <;> rfl

/-- The surfaces after the end of an upload write: that of the UPLOAD which executes has loaded more (R28). -/
theorem State.completeUpload_surface (j : SurfaceId) : s.completeUpload.surface j = s.surface j
    ∨ ∃ e taken, s.clc.executing = some e ∧ e.job = .upload j taken ∧ s.completeUpload.surface j = (s.surface j).loadedMore taken := by
  rcases s.uploadJob_cases with ⟨e, i, taken, he, hjob⟩ | h
  · have hmoved : s.completeUpload.surface j = if i = j then (s.surface i).loadedMore taken else s.surface j := by
      rw [s.completeUpload_upload he hjob, State.surface, (State.returnResult_eq _ _ _).1]
      refine Eq.trans ?_ (State.setSurface_surface { s with fsc := s.fsc.endUpload } i j _)
      split <;> rfl
    rw [hmoved]
    by_cases hij : i = j
    · subst hij
      exact .inr ⟨e, taken, he, hjob, if_pos rfl⟩
    · exact .inl (if_neg hij)
  · rw [s.completeUpload_other h]
    exact .inl rfl

theorem SurfaceState.loadedMore_desc (taken : Nat) (st : SurfaceState) : (st.loadedMore taken).desc = st.desc := by
  cases st with
  | loading d loaded =>
    simp only [SurfaceState.loadedMore]
    split <;> rfl
  | _ => rfl

theorem State.completeUpload_desc (j : SurfaceId) : (s.completeUpload.surface j).desc = (s.surface j).desc := by
  rcases s.completeUpload_surface j with h | ⟨_, taken, _, _, h⟩ <;> rw [h]
  exact SurfaceState.loadedMore_desc taken _

/-- The part as a burst in progress has ended, before its bytes are used (R137). -/
def State.freed (b : Burst) : State := { s.atLeast b.endsAt with fsc := { s.fsc with burst := none } }

/-- The part as a load burst has written its bytes (R143). -/
def State.written (b : Burst) (u : UploadWrite) : State :=
  { s with
    store := Memory.writeBytes s.store b.address (u.data.take b.length)
    fsc := { s.fsc with upload := some { u with data := u.data.drop b.length, bursts := u.bursts + 1 } } }

theorem State.endBurst_fetch {b : Burst} {t : TileId} (hk : b.kind = .fetch t false) :
    s.endBurst b = ((s.freed b).fetchBurstDone t).grant := by
  simp only [State.endBurst, hk]
  rfl

theorem State.endBurst_stale {b : Burst} {t : TileId} (hk : b.kind = .fetch t true) : s.endBurst b = (s.freed b).grant := by
  simp only [State.endBurst, hk]
  rfl

theorem State.endBurst_load {b : Burst} (hk : b.kind = .load) : s.endBurst b = ((s.freed b).loadBurstDone b).grant := by
  simp only [State.endBurst, hk]
  rfl

theorem State.loadBurstDone_none {b : Burst} (hu : s.fsc.upload = none) : s.loadBurstDone b = s := by
  simp only [State.loadBurstDone, hu]

theorem State.loadBurstDone_some {b : Burst} {u : UploadWrite} (hu : s.fsc.upload = some u) :
    s.loadBurstDone b = if u.data.drop b.length = [] then (s.written b u).completeUpload else s.written b u := by
  simp only [State.loadBurstDone, hu, State.written]

/-- A fetch burst's end moves the store controller and the lines formed (R139). -/
theorem State.fetchBurstDone_eq (t : TileId) :
    s.fetchBurstDone t = { s with fsc := (s.fetchBurstDone t).fsc, cmp := (s.fetchBurstDone t).cmp } := by
  unfold State.fetchBurstDone
  split <;> rfl

/-- A load burst's end moves the surfaces' load states, the store, its controller, the link, RDY and the events (R143, R28). -/
theorem State.loadBurstDone_eq (b : Burst) : s.loadBurstDone b = { s with
    clc := (s.loadBurstDone b).clc, sdir := (s.loadBurstDone b).sdir, csu := (s.loadBurstDone b).csu
    evb := (s.loadBurstDone b).evb, store := (s.loadBurstDone b).store, fsc := (s.loadBurstDone b).fsc }
    ∧ (s.loadBurstDone b).clc.straps = s.clc.straps := by
  cases hu : s.fsc.upload with
  | none =>
    rw [s.loadBurstDone_none hu]
    exact ⟨rfl, rfl⟩
  | some u =>
    rw [s.loadBurstDone_some hu]
    split
    · obtain ⟨heq, hstraps⟩ := (s.written b u).completeUpload_eq
      refine ⟨?_, hstraps⟩
      rw [heq]
      rfl
    · exact ⟨rfl, rfl⟩

theorem State.loadBurstDone_desc (b : Burst) (j : SurfaceId) : ((s.loadBurstDone b).surface j).desc = (s.surface j).desc := by
  cases hu : s.fsc.upload with
  | none => rw [s.loadBurstDone_none hu]
  | some u =>
    rw [s.loadBurstDone_some hu]
    split
    · exact (s.written b u).completeUpload_desc j
    · rfl

theorem State.endBurst_desc (b : Burst) (j : SurfaceId) : ((s.endBurst b).surface j).desc = (s.surface j).desc := by
  match hk : b.kind with
  | .fetch t false =>
    rw [s.endBurst_fetch hk, State.surface, State.grant_sdir, State.fetchBurstDone_eq]
    rfl
  | .fetch t true => rw [s.endBurst_stale hk]; rfl
  | .load =>
    rw [s.endBurst_load hk]
    exact (s.freed b).loadBurstDone_desc b j

theorem State.endBurst_straps (b : Burst) : (s.endBurst b).clc.straps = s.clc.straps := by
  match hk : b.kind with
  | .fetch t false =>
    rw [s.endBurst_fetch hk, State.grant_clc, State.fetchBurstDone_eq]
    rfl
  | .fetch t true => rw [s.endBurst_stale hk]; rfl
  | .load =>
    rw [s.endBurst_load hk]
    exact ((s.freed b).loadBurstDone_eq b).2

/-- A burst's end writes the bytes of a load burst, and otherwise leaves the store (R143). -/
theorem State.endBurst_store (b : Burst) : (s.endBurst b).store = s.store
    ∨ ∃ u, s.fsc.upload = some u ∧ (s.endBurst b).store = Memory.writeBytes s.store b.address (u.data.take b.length) := by
  match hk : b.kind with
  | .fetch t false =>
    rw [s.endBurst_fetch hk, State.grant_store, State.fetchBurstDone_eq]
    exact .inl rfl
  | .fetch t true => rw [s.endBurst_stale hk]; exact .inl rfl
  | .load =>
    rw [s.endBurst_load hk, State.grant_store]
    cases hu : (s.freed b).fsc.upload with
    | none => rw [State.loadBurstDone_none _ hu]; exact .inl rfl
    | some u =>
      refine .inr ⟨u, hu, ?_⟩
      rw [State.loadBurstDone_some _ hu]
      split
      · rw [((s.freed b).written b u).completeUpload_eq.1]
        rfl
      · rfl

end

/-! ### Straps, surfaces and store after each outcome -/

theorem State.finish_straps (code : Nat) (broadcast : Bool) (r : State × Result) :
    (State.finish code broadcast r).clc.straps = r.1.clc.straps ∧ (State.finish code broadcast r).store = r.1.store := by
  unfold State.finish
  split <;> exact ⟨rfl, rfl⟩

theorem State.unnameAll_eq (is : List SurfaceId) (s : State) : s.unnameAll is = { s with sdir := (s.unnameAll is).sdir } := by
  induction is generalizing s with
  | nil => rfl
  | cons i is ih => exact ih (s.unnameSurface i)

theorem State.nameAll_eq (is : List SurfaceId) (s : State) : s.nameAll is = { s with sdir := (s.nameAll is).sdir } := by
  induction is generalizing s with
  | nil => rfl
  | cons i is ih => exact ih (s.nameSurface i)

/-- A placement command moves the record and the counts alone (R46 to R51). -/
theorem State.rewrite_eq (i : PlacementId) (r : Placement) (dropped named : List SurfaceId) (s : State) :
    s.rewrite i r dropped named
      = { s with ptab := s.ptab.set i r, sdir := (s.rewrite i r dropped named).sdir } := by
  have hname := State.nameAll_eq named ((s.setPlacement i r).unnameAll dropped)
  rw [State.unnameAll_eq dropped (s.setPlacement i r)] at hname
  unfold State.rewrite
  rw [State.unnameAll_eq dropped (s.setPlacement i r)]
  exact hname

theorem State.storeWarmUp_eq (ts : List TileId) (warmUp : Option Nat) (s : State) :
    s.storeWarmUp ts warmUp = { s with tiles := (s.storeWarmUp ts warmUp).tiles } := by
  cases warmUp <;> rfl

theorem State.ByCommand.straps {s t : State} {r : Result} (h : s.ByCommand t r) : t.clc.straps = s.clc.straps := by
  cases h with
  | answers _ _ h => exact h.samePicture.straps
  | power ts on warmUp => rw [State.switchPorts_clc, State.storeWarmUp_eq]
  | rewrites i r dropped named => rw [State.rewrite_eq]
  | starts => exact s.samePicture_beginStart.straps
  | _ => rfl

/-! ### No page belongs to two surfaces -/

/-- The pages read the surfaces' descriptions and the strapped store. -/
theorem State.PagesInv.congr {s t : State} (h : s.PagesInv) (hdesc : ∀ i, (t.surface i).desc = (s.surface i).desc ∨ (t.surface i).desc = none)
    (hstraps : t.clc.straps = s.clc.straps) : t.PagesInv := by
  have hback : ∀ {i d}, (t.surface i).desc = some d → (s.surface i).desc = some d := fun {i d} hd => by
    rcases hdesc i with h | h
    · rw [← h, hd]
    · rw [h] at hd; cases hd
  obtain ⟨hapart, hinside⟩ := h
  refine ⟨fun i j a b hij ha hb => hapart i j a b hij (hback ha) (hback hb), fun i d hd => ?_⟩
  rw [hstraps]
  exact hinside i d (hback hd)

theorem State.PagesInv.of_same {s t : State} (h : s.PagesInv) (hsdir : t.sdir = s.sdir) (hstraps : t.clc.straps = s.clc.straps) :
    t.PagesInv := h.congr (fun i => .inl (by rw [State.surface, State.surface, hsdir])) hstraps

theorem State.pagesInv_of_empty {s : State} (h : ∀ i, s.surface i = .empty) : s.PagesInv :=
  ⟨fun i j a b _ ha _ => (by rw [h i] at ha; cases ha), fun i d hd => (by rw [h i] at hd; cases hd)⟩

/-- Two descriptions that share a page overlap (R25). -/
theorem Desc.Overlaps.of_page {a b : Desc} {page : Nat} (ha : a.basePage ≤ page ∧ page < a.basePage + a.pageCount)
    (hb : b.basePage ≤ page ∧ page < b.basePage + b.pageCount) : a.Overlaps b := by
  unfold Desc.Overlaps
  omega

/-- Where test 5 of R23 passes no other surface shares a page. -/
theorem State.not_overlaps_of_overlapping_eq_none {s : State} {i k : SurfaceId} {d x : Desc} (h : s.overlapping i d = none) (hki : k ≠ i)
    (hx : (s.surface k).desc = some x) : ¬ d.Overlaps x := fun ho => by
  rw [State.overlapping_eq, List.find?_eq_none] at h
  exact h k (List.mem_finRange k) (sharesWith_iff.2 ⟨hki, x, hx, ho⟩)

/-- A surface defined past tests 4 and 5 of R23 keeps the pages apart and inside the store. -/
theorem State.PagesInv.defines {s : State} (hs : s.PagesInv) {i : SurfaceId} {d : Desc} (hfits : s.fitsStore d = true)
    (hoverlap : s.overlapping i d = none) : (s.setSurface i (.loading d 0)).PagesInv := by
  obtain ⟨hapart, hinside⟩ := hs
  have hdesc : ∀ {j x}, ((s.setSurface i (.loading d 0)).surface j).desc = some x →
      (j = i ∧ x = d) ∨ (j ≠ i ∧ (s.surface j).desc = some x) := fun {j x} hx => by
    rw [State.setSurface_surface] at hx
    split at hx
    · next hij => cases hx; exact .inl ⟨hij.symm, rfl⟩
    · next hij => exact .inr ⟨fun e => hij e.symm, hx⟩
  refine ⟨fun j k a b hjk ha hb page ⟨hpa, hpb⟩ => ?_, fun j x hx => ?_⟩
  · rcases hdesc ha with ⟨rfl, rfl⟩ | ⟨hj, ha'⟩ <;> rcases hdesc hb with ⟨rfl, rfl⟩ | ⟨hk, hb'⟩
    · exact hjk rfl
    · exact State.not_overlaps_of_overlapping_eq_none hoverlap hk hb' (.of_page hpa hpb)
    · exact State.not_overlaps_of_overlapping_eq_none hoverlap hj ha' (.of_page hpb hpa)
    · exact hapart j k a b hjk ha' hb' page ⟨hpa, hpb⟩
  · rcases hdesc hx with ⟨rfl, rfl⟩ | ⟨_, hx⟩
    · exact of_decide_eq_true hfits
    · exact hinside j x hx

theorem SurfaceRec.kept_desc (r : SurfaceRec) : r.kept.state.desc = r.state.desc ∨ r.kept.state.desc = none := by
  unfold SurfaceRec.kept
  split
  · next h => exact .inl (by rw [h])
  · exact .inr rfl
  · exact .inr rfl

theorem State.PagesInv.keepValues {s : State} (hs : s.PagesInv) : s.keepValues.PagesInv :=
  hs.congr (fun i => by
    simp only [State.surface, State.keepValues, Table.get_mapIdx]
    exact (s.sdir.get i).kept_desc) rfl

theorem State.afterFullReset_surface (s : State) (straps : Straps) (pins : Pins) (e : Nat) (i : SurfaceId) :
    (s.afterFullReset straps pins e).surface i = .empty := by
  show (State.reset.sdir.get i).state = .empty
  simp [State.reset]

theorem State.PagesInv.byCommand {s t : State} {r : Result} (hs : s.PagesInv) (h : s.ByCommand t r) : t.PagesInv := by
  have hstraps := h.straps
  cases h with
  | answers _ _ h => exact hs.of_same h.samePicture.sdir hstraps
  | power ts on warmUp => exact hs.of_same ((State.switchPorts_sdir _ _ _).trans (by rw [State.storeWarmUp_eq])) hstraps
  | resets => exact hs.keepValues.of_same rfl rfl
  | defines i d _ _ _ hfits hoverlap => exact hs.defines hfits hoverlap
  | drops i => exact hs.congr (fun j => by rw [State.setSurface_surface]; split <;> simp [SurfaceState.desc]) hstraps
  | rewrites i r dropped named => exact hs.congr (fun j => .inl (by rw [State.rewrite_surface])) hstraps
  | uploads => exact hs.of_same (State.handOverUpload_sdir _ _) hstraps
  | makesDue => exact hs.of_same (State.makeDue_sdir _ _) hstraps
  | withdraws => exact hs.of_same (State.withdrawGroup_sdir _ _) hstraps
  | starts => exact hs.of_same s.samePicture_beginStart.sdir hstraps
  | tiles => exact hs.of_same rfl rfl
  | stops => exact hs.of_same rfl rfl
  | setsGroup => exact hs.of_same rfl rfl
  | arms => exact hs.of_same rfl rfl

theorem State.Chained.straps {s t : State} (h : s.Chained t) : t.clc.straps = s.clc.straps := by
  induction h with
  | refl => rfl
  | same _ hk ih => exact hk.straps.trans ih
  | records _ _ ih => exact ih

/-- Changes of records leave every surface's load state. -/
theorem State.Chained.surface {s t : State} (h : s.Chained t) (i : SurfaceId) : t.surface i = s.surface i := by
  induction h with
  | refl => rfl
  | same _ hk ih => rw [← ih, State.surface, hk.sdir]; rfl
  | records _ _ ih => rw [← ih, State.surface, State.changeRecords_refs]; rfl

/-- Sending a line and requesting the next leave the surfaces, the store, the records, the ports and the link. -/
theorem State.line_eq (s : State) (t : TileId) (n : Nat) :
    let u := ((((s.atLeast n).sendDueLine t (s.frames.get t).nextLine).advanceLine t).requestLine t ((s.frames.get t).nextLine + 1)).grant
    u = { s with
      now := u.now, links := u.links, cmp := u.cmp, fsc := u.fsc, evb := u.evb
      frames := s.frames.modify t fun f => { f with nextLine := f.nextLine + 1 } } := by
  intro u
  have h := (s.atLeast n).sendDueLine_eq t (s.frames.get t).nextLine
  simp only [u]
  rw [h]
  rfl

theorem State.PagesInv.draws {s t : State} (hs : s.PagesInv) (h : s.Draws t) : t.PagesInv := by
  cases h with
  | chained h => exact hs.congr (fun i => .inl (by rw [h.surface])) h.straps
  | closes h =>
    refine hs.congr (fun i => .inl ?_) ((congrArg Clc.straps (State.closeBoundary_clc _)).trans h.straps)
    rw [State.surface, State.closeBoundary_sdir]
    exact congrArg SurfaceState.desc (h.surface i)
  | command code broadcast _ hsame h =>
    exact ((hs.of_same hsame.sdir hsame.straps).byCommand h).of_same (State.finish_sdir_ptab code broadcast (_, _)).1
      (State.finish_straps code broadcast (_, _)).1
  | fullReset straps pins e => exact State.pagesInv_of_empty (s.afterFullReset_surface straps pins e)
  | keepReset pins e => exact State.PagesInv.of_same (State.PagesInv.keepValues (hs.of_same (t := { s with pins := pins }) rfl rfl)) rfl rfl
  | running e he hjob =>
    obtain ⟨heq, hstraps, _⟩ := (s.enterPhase .running).returnResult_eq .ok .empty
    exact hs.of_same (by rw [heq]; rfl) hstraps
  | line t n => rw [s.line_eq t n]; exact hs.of_same rfl rfl
  | burst b => exact hs.congr (fun i => .inl (s.endBurst_desc b i)) (s.endBurst_straps b)
  | window n => exact hs.of_same rfl rfl
  | warmedUp t n endsAt h => exact hs.of_same rfl rfl
  | portBoundary t => exact hs.of_same rfl rfl
  | status t locked temperature hot h => exact hs.of_same rfl rfl

theorem pagesInv_kept : StepKeeps State.PagesInv :=
  stepKeeps_of_draws (fun _ _ h hs => hs.of_same h.sdir h.straps) fun _ _ h hs => hs.draws h

/-! ### The frame store's contents -/

theorem State.MemoryInv.congr {s t : State} (h : s.MemoryInv) (hstore : t.store = s.store) (hstraps : t.clc.straps = s.clc.straps) :
    t.MemoryInv := by
  unfold State.MemoryInv at *
  rw [hstore, hstraps]
  exact h

/-- Bytes that lose their value leave the contents in order (R148). -/
theorem State.MemoryInv.keepValues {s : State} (hs : s.MemoryInv) : s.keepValues.MemoryInv := by
  obtain ⟨hwf, hinside⟩ := hs
  show Memory.wf (keptStore s.store s.fsc.burst) ∧ ∀ c ∈ keptStore s.store s.fsc.burst, _
  unfold keptStore
  split
  · exact ⟨hwf, hinside⟩
  · split
    · exact ⟨Memory.forget_wf hwf _ _, fun c hc => hinside c (Memory.mem_forget hc)⟩
    · exact ⟨hwf, hinside⟩

/-- A burst inside the strapped store writes no byte outside it (R25). -/
theorem State.MemoryInv.endBurst {s : State} (hs : s.MemoryInv) {b : Burst} (hinside : s.burstInside b = true) :
    (s.endBurst b).MemoryInv := by
  obtain ⟨hwf, hcells⟩ := hs
  have hb : b.address + b.length ≤ storePages s.clc.straps.store * pageBytes := of_decide_eq_true hinside
  unfold State.MemoryInv
  rw [s.endBurst_straps]
  rcases s.endBurst_store b with h | ⟨u, _, h⟩ <;> rw [h]
  · exact ⟨hwf, hcells⟩
  · refine ⟨Memory.writeBytes_wf _ hwf _, fun c hc => ?_⟩
    rcases Memory.mem_writeBytes _ hc with hc | ⟨_, hc⟩
    · exact hcells c hc
    · have := List.length_take_le b.length u.data
      omega

theorem State.MemoryInv.byCommand {s t : State} {r : Result} (hs : s.MemoryInv) (h : s.ByCommand t r) : t.MemoryInv := by
  have hstraps := h.straps
  cases h with
  | answers _ _ h => exact hs.congr h.samePicture.store hstraps
  | power ts on warmUp => exact hs.congr ((State.switchPorts_store _ _ _).trans (by rw [State.storeWarmUp_eq])) hstraps
  | resets => exact hs.keepValues.congr rfl rfl
  | rewrites i r dropped named => exact hs.congr (by rw [State.rewrite_eq]) hstraps
  | starts => exact hs.congr s.samePicture_beginStart.store hstraps
  | _ => exact hs.congr rfl rfl

theorem State.MemoryInv.chained {s t : State} (hs : s.MemoryInv) (h : s.Chained t) : t.MemoryInv :=
  h.keeps hs (fun _ _ hsame hu => hu.congr hsame.store hsame.straps) fun _ _ _ hu => hu.congr rfl rfl

theorem State.MemoryInv.draws {s t : State} (hs : s.MemoryInv) (h : s.Draws t) : t.MemoryInv := by
  cases h with
  | chained h => exact hs.chained h
  | closes h =>
    exact (hs.chained h).congr (State.closeBoundary_store _) (congrArg Clc.straps (State.closeBoundary_clc _))
  | command code broadcast _ hsame h =>
    obtain ⟨hstraps, hstore⟩ := State.finish_straps code broadcast (_, _)
    exact ((hs.congr hsame.store hsame.straps).byCommand h).congr hstore hstraps
  | fullReset straps pins e => exact ⟨Memory.wf_nil, nofun⟩
  | keepReset pins e => exact State.MemoryInv.congr (State.MemoryInv.keepValues (hs.congr (t := { s with pins := pins }) rfl rfl)) rfl rfl
  | running e he hjob =>
    obtain ⟨heq, hstraps, _⟩ := (s.enterPhase .running).returnResult_eq .ok .empty
    exact hs.congr (by rw [heq]; rfl) hstraps
  | line t n => rw [s.line_eq t n]; exact hs.congr rfl rfl
  | burst b _ hinside => exact hs.endBurst hinside
  | window n => exact hs.congr rfl rfl
  | warmedUp t n endsAt h => exact hs.congr rfl rfl
  | portBoundary t => exact hs.congr rfl rfl
  | status t locked temperature hot h => exact hs.congr rfl rfl

theorem memoryInv_kept : StepKeeps State.MemoryInv :=
  stepKeeps_of_draws (fun _ _ h hs => hs.congr h.store h.straps) fun _ _ h hs => hs.draws h

end Sys2Proof.Machine

/-! SUPPORT. The compositor's arithmetic: source columns and rows stay inside the source rectangle, a line's runs inside the surface, and
CompositionArithmetic. -/

namespace Sys2Proof.Machine

/-! ### Source columns and rows (R128) -/

/-- A step of R40 taken fewer times than there are destination pixels, and half a step more, stays inside the source. -/
theorem sourceOffset_lt {source destination k : Nat} (hs : 1 ≤ source) (hk : k < destination) :
    (k * (source * 65536 / destination) + source * 65536 / destination / 2) / 65536 < source := by
  have hle : destination * (source * 65536 / destination) ≤ source * 65536 := Nat.mul_div_le _ _
  generalize source * 65536 / destination = step at hle
  rw [Nat.div_lt_iff_lt_mul (by omega)]
  obtain ⟨rest, rfl⟩ : ∃ rest, destination = k + 1 + rest := ⟨destination - (k + 1), by omega⟩
  rw [Nat.add_mul, Nat.add_mul, Nat.one_mul] at hle
  have : 0 ≤ rest * step := Nat.zero_le _
  by_cases hzero : step = 0
  · subst hzero
    omega
  · omega

/-- The source columns grow with the wall columns. -/
theorem sourceColumn_mono (v : Values) {x y : Nat} (h : x ≤ y) : sourceColumn v x ≤ sourceColumn v y := by
  unfold sourceColumn
  have hmul : (x - v.dx) * v.stepX ≤ (y - v.dx) * v.stepX := Nat.mul_le_mul_right _ (by omega)
  have := Nat.div_le_div_right (c := 65536) (Nat.add_le_add_right hmul (v.stepX / 2))
  omega

theorem sourceColumn_inside {v : Values} {x : Nat} (hs : 1 ≤ v.sw) (hstep : v.stepX = v.sw * 65536 / v.dw) (hx : v.dx ≤ x)
    (hx' : x < v.dx + v.dw) : v.sx ≤ sourceColumn v x ∧ sourceColumn v x < v.sx + v.sw := by
  have := sourceOffset_lt (source := v.sw) (destination := v.dw) (k := x - v.dx) hs (by omega)
  rw [← hstep] at this
  unfold sourceColumn
  omega

theorem sourceRow_inside {v : Values} {y : Nat} (hs : 1 ≤ v.sh) (hstep : v.stepY = v.sh * 65536 / v.dh) (hy : v.dy ≤ y)
    (hy' : y < v.dy + v.dh) : v.sy ≤ sourceRow v y ∧ sourceRow v y < v.sy + v.sh := by
  have := sourceOffset_lt (source := v.sh) (destination := v.dh) (k := y - v.dy) hs (by omega)
  rw [← hstep] at this
  unfold sourceRow
  omega

theorem Format.bytes_eq (f : Format) : f.bytes = match f with | .full => 4 | .half => 2 := by cases f <;> rfl

/-! ### Runs (R135) -/

/-- The part of a line that an entry covers. -/
def Entry.Meets (f : FrameRec) (py : Nat) (e : Entry) : Prop :=
  0 < e.weight ∧ e.values.dy ≤ f.originY + py ∧ f.originY + py < e.values.dy + e.values.dh
    ∧ max f.originX e.values.dx < min (f.originX + f.panelW) (e.values.dx + e.values.dw)

theorem Entry.run_none {f : FrameRec} {py : Nat} {e : Entry} (h : e.desc = none ∨ ¬ e.Meets f py) : e.run f py = none := by
  unfold Entry.run
  cases hd : e.desc with
  | none => rfl
  | some d =>
    have hmeets : ¬ e.Meets f py := h.resolve_left (by rw [hd]; exact nofun)
    refine if_neg fun hcond => hmeets ?_
    simp only [Bool.and_eq_true, decide_eq_true_eq, and_assoc] at hcond
    exact hcond

theorem Entry.run_some {f : FrameRec} {py : Nat} {e : Entry} {d : Desc} (hd : e.desc = some d) (h : e.Meets f py) :
    e.run f py = some
      (pixelAddress d (sourceColumn e.values (max f.originX e.values.dx)) (e.cell * d.cellHeight + sourceRow e.values (f.originY + py)),
        (sourceColumn e.values (min (f.originX + f.panelW) (e.values.dx + e.values.dw) - 1) + 1
          - sourceColumn e.values (max f.originX e.values.dx)) * d.format.bytes) := by
  unfold Entry.run
  rw [hd]
  refine if_pos ?_
  simp only [Bool.and_eq_true, decide_eq_true_eq, and_assoc]
  exact h

/-- Every pixel between the first and the last of a run lies in it. -/
theorem pixelAddress_inside_run (d : Desc) {u0 u u1 row : Nat} (h0 : u0 ≤ u) (h1 : u ≤ u1) :
    pixelAddress d u0 row ≤ pixelAddress d u row
      ∧ pixelAddress d u row + d.format.bytes ≤ pixelAddress d u0 row + (u1 + 1 - u0) * d.format.bytes := by
  unfold pixelAddress
  obtain ⟨k, rfl⟩ := Nat.exists_eq_add_of_le h0
  obtain ⟨m, rfl⟩ := Nat.exists_eq_add_of_le h1
  have hlen : u0 + k + m + 1 - u0 = k + m + 1 := by omega
  rw [hlen]
  simp only [Nat.add_mul, Nat.one_mul]
  omega

/-! ### Weights, channels and points -/

theorem fadeInWeight_le (v : Values) (age : Nat) : fadeInWeight v age ≤ 256 := by
  unfold fadeInWeight
  split
  · exact Nat.div_le_of_le_mul (by rw [Nat.mul_comm]; exact Nat.mul_le_mul_right _ (by omega))
  · exact Nat.le_refl _

theorem fadeOutWeight_le (v : Values) (j : Nat) : fadeOutWeight v j ≤ 256 := by
  unfold fadeOutWeight
  split
  · exact Nat.div_le_of_le_mul (by rw [Nat.mul_comm]; exact Nat.mul_le_mul_right _ (by omega))
  · exact Nat.zero_le _

theorem effectiveWeight_le {v : Values} {fade : Nat} (ha : v.alpha ≤ 256) (hf : fade ≤ 256) : effectiveWeight v fade ≤ 256 :=
  Nat.div_le_of_le_mul (Nat.mul_le_mul ha hf)

theorem blendChannel_le {w s c : Nat} (hw : w ≤ 256) (hs : s ≤ 255) (hc : c ≤ 255) : blendChannel w s c ≤ 255 := by
  unfold blendChannel
  have h1 : s * w ≤ 255 * w := Nat.mul_le_mul_right _ hs
  have h2 : c * (256 - w) ≤ 255 * (256 - w) := Nat.mul_le_mul_right _ hc
  omega

/-- Every channel lies in 0 to 255. -/
def ChannelsFit (c : Rgb) : Prop := c.red ≤ 255 ∧ c.green ≤ 255 ∧ c.blue ≤ 255

theorem halfColour_inRange (b0 b1 : Byte) : ChannelsFit (halfColour (b0.toNat + 256 * b1.toNat)) := by
  have h0 := b0.isLt
  have h1 := b1.isLt
  unfold halfColour ChannelsFit widen5 widen6
  simp only
  omega

theorem sourceColour_inRange {byteAt : Nat → Byte} {d : Desc} {a : Nat} {c : Rgb} (h : sourceColour byteAt d a = some c) :
    ChannelsFit c := by
  simp only [sourceColour] at h
  split at h
  · split at h
    · cases h
    · cases h
      exact halfColour_inRange _ _
  · split at h
    · cases h
    · cases h
      exact ⟨Nat.le_of_lt_succ (byteAt _).isLt, Nat.le_of_lt_succ (byteAt _).isLt, Nat.le_of_lt_succ (byteAt _).isLt⟩

theorem Entry.colourAt_inRange {byteAt : Nat → Byte} {e : Entry} {x y : Nat} {c : Rgb} (h : e.colourAt byteAt x y = some c) :
    ChannelsFit c := by
  unfold Entry.colourAt at h
  split at h
  · cases h
  · split at h
    · exact sourceColour_inRange h
    · cases h

theorem Entry.drawOver_some {byteAt : Nat → Byte} {e : Entry} {x y : Nat} {c s : Rgb} (h : e.colourAt byteAt x y = some s) :
    e.drawOver byteAt x y c = blend e.weight s c := by
  simp only [Entry.drawOver, h]

theorem Entry.drawOver_none {byteAt : Nat → Byte} {e : Entry} {x y : Nat} {c : Rgb} (h : e.colourAt byteAt x y = none) :
    e.drawOver byteAt x y c = c := by
  simp only [Entry.drawOver, h]

theorem Entry.drawOver_inRange {byteAt : Nat → Byte} {e : Entry} {x y : Nat} {c : Rgb} (hw : e.weight ≤ 256) (hc : ChannelsFit c) :
    ChannelsFit (e.drawOver byteAt x y c) := by
  cases h : e.colourAt byteAt x y with
  | none => rw [Entry.drawOver_none h]; exact hc
  | some s =>
    obtain ⟨hr, hg, hb⟩ := hc
    obtain ⟨sr, sg, sb⟩ := Entry.colourAt_inRange h
    rw [Entry.drawOver_some h]
    exact ⟨blendChannel_le hw sr hr, blendChannel_le hw sg hg, blendChannel_le hw sb hb⟩

theorem scale_le {c level : Nat} (h : level ≤ 256) : c * level / 256 ≤ c :=
  Nat.div_le_of_le_mul (by rw [Nat.mul_comm]; exact Nat.mul_le_mul_right _ h)

theorem composePoint_inRange {byteAt : Nat → Byte} {level x y : Nat} (hlevel : level ≤ 256) (entries : List Entry) {background : Rgb}
    (hb : ChannelsFit background) (hw : ∀ e ∈ entries, e.weight ≤ 256) : ChannelsFit (composePoint byteAt background level entries x y) := by
  induction entries generalizing background with
  | nil =>
    obtain ⟨hr, hg, hb⟩ := hb
    exact ⟨Nat.le_trans (scale_le hlevel) hr, Nat.le_trans (scale_le hlevel) hg, Nat.le_trans (scale_le hlevel) hb⟩
  | cons e later ih =>
    exact ih (Entry.drawOver_inRange (hw e List.mem_cons_self) hb) fun e' he' => hw e' (List.mem_cons_of_mem _ he')

theorem Rect.contains_iff {v : Values} {x y : Nat} : v.destination.contains x y = true
    ↔ v.dx ≤ x ∧ x < v.dx + v.dw ∧ v.dy ≤ y ∧ y < v.dy + v.dh := by
  unfold Rect.contains
  simp only [Bool.and_eq_true, decide_eq_true_eq, and_assoc]
  exact Iff.rfl

theorem Entry.colourAt_covered {byteAt : Nat → Byte} {e : Entry} {d : Desc} {x y : Nat} (hd : e.desc = some d)
    (hcovers : e.values.destination.contains x y = true) (hw : 0 < e.weight) :
    e.colourAt byteAt x y
      = sourceColour byteAt d (pixelAddress d (sourceColumn e.values x) (e.cell * d.cellHeight + sourceRow e.values y)) := by
  unfold Entry.colourAt
  rw [hd]
  exact if_pos (by simp [hcovers, hw])

theorem Entry.colourAt_uncovered {byteAt : Nat → Byte} {e : Entry} {x y : Nat}
    (h : ¬ e.values.destination.contains x y = true ∨ e.weight = 0) : e.colourAt byteAt x y = none := by
  unfold Entry.colourAt
  split
  · rfl
  · refine if_neg fun hcond => ?_
    simp only [Bool.and_eq_true, decide_eq_true_eq] at hcond
    rcases h with h | h
    · exact h hcond.1
    · omega

/-- Settles O42: each formula is the model's own; the bounds are those of the source offset, of a weighted mean and of a scaled
channel. -/
theorem compositionArithmetic : Obligations.CompositionArithmetic := by
  unfold Obligations.CompositionArithmetic
  refine ⟨fun v x y _ _ hsw hsh hX hY hx hx' hy hy' => ?source, fun d column row => ?address, fun v cells age => ?cell, fun v age j => ?weights,
    fun f since start g v b p => ⟨rfl, rfl⟩, fun v fade => rfl, fun bytes d a hf => ?full, fun bytes d a hf => ?half, fun n hn => ?five,
    fun n hn => ?six, rfl, rfl, rfl, rfl, fun w s c hw hs hc => ⟨rfl, blendChannel_le hw hs hc, fun h => ?opaque', fun h => ?clear⟩,
    fun bytes e x y => ?colour, fun bytes x y c s e => ⟨fun h => (Entry.drawOver_some h).trans rfl, Entry.drawOver_none⟩,
    fun bytes c level x y => ⟨rfl, fun h => ⟨scale_le h, scale_le h, scale_le h⟩, fun e later => rfl⟩,
    fun bytes background f px py hpx => ⟨by simp [composeLine], by simp [composeLine, hpx]⟩, fun f py => rfl, fun f py e => ?run,
    fun bytes background level entries x y hl hr hg hb hw => composePoint_inRange hl entries ⟨hr, hg, hb⟩ hw⟩
  case source =>
    obtain ⟨hc, hc'⟩ := sourceColumn_inside hsw hX hx hx'
    obtain ⟨hr, hr'⟩ := sourceRow_inside hsh hY hy hy'
    exact ⟨rfl, hc, hc', rfl, hr, hr'⟩
  case address => rw [pixelAddress, Format.bytes_eq]; rfl
  case cell => cases hm : v.cellMode <;> simp only [cellAt, hm]
  case weights =>
    exact ⟨rfl, rfl, fadeInWeight_le v age, fadeOutWeight_le v j, fun ha =>
      effectiveWeight_le ha (Nat.le_trans (Nat.min_le_left _ _) (fadeInWeight_le v age))⟩
  case full => simp only [sourceColour, hf]; rfl
  case half => simp only [sourceColour, hf]; rfl
  case five => exact ⟨rfl, by unfold widen5; omega, by unfold widen5; omega⟩
  case six => exact ⟨rfl, by unfold widen6; omega, by unfold widen6; omega⟩
  case opaque' => subst h; unfold blendChannel; omega
  case clear => subst h; unfold blendChannel; omega
  case colour =>
    intro covers
    exact ⟨fun d hd hcovers hw => Entry.colourAt_covered hd (Rect.contains_iff.2 hcovers) hw,
      fun h => Entry.colourAt_uncovered (h.imp_left (mt Rect.contains_iff.1))⟩
  case run =>
    intro v y first beyond meets
    refine ⟨Entry.run_none, fun d hd hmeets => ?_⟩
    intro row bytes
    have hbytes : d.format.bytes = bytes := d.format.bytes_eq
    refine ⟨_, _, Entry.run_some hd hmeets, ?_, ?_, fun x hx hx' => ?_⟩
    · rw [pixelAddress, hbytes]; rfl
    · rw [hbytes]
    · rw [← hbytes]
      exact pixelAddress_inside_run d (sourceColumn_mono v hx) (sourceColumn_mono v (Nat.le_sub_one_of_lt hx'))

end Sys2Proof.Machine

/-! SUPPORT. Every burst, fetch and upload stays inside the strapped store: StoreAndPagesKept. -/

namespace Sys2Proof.Machine

/-! ### The parts of TransfersInv -/

/-- The values of every record fit the surface they name. -/
def State.RecordsFit (s : State) : Prop :=
  ∀ i, ∀ v ∈ (s.ptab.get i).valueSets, ∃ d, (s.surface v.surface).desc = some d ∧ v.FitsIn d

/-- An entry is drawn from inside a surface whose pages lie inside a store of `pages` pages. -/
def Entry.FitsIn (pages : Nat) (e : Entry) : Prop :=
  ∃ d, e.desc = some d ∧ e.values.FitsIn d ∧ e.cell < d.cells ∧ d.basePage + d.pageCount ≤ pages

/-- The entries of every frame in progress fit the surface they were taken from. -/
def State.FramesFit (s : State) : Prop :=
  ∀ t, ∀ e ∈ (s.frames.get t).entries, e.FitsIn (storePages s.clc.straps.store)

/-- The burst in progress and the runs of every waiting fetch lie inside the strapped store. -/
def State.QueueInside (s : State) : Prop :=
  (∀ b, s.fsc.burst = some b → b.address + b.length ≤ s.storeBytes)
    ∧ ∀ t g, s.fsc.fetches.get t = some g → ∀ r ∈ g.runs, r.1 + r.2 ≤ s.storeBytes

theorem State.transfersInv_iff {s : State} : s.TransfersInv
    ↔ s.RefsInv ∧ s.PagesInv ∧ s.UploadInside ∧ s.QueueInside ∧ s.RecordsFit ∧ s.FramesFit := by
  unfold State.TransfersInv State.QueueInside
  exact ⟨fun ⟨h1, h2, h3, h4, h5, h6, h7⟩ => ⟨h1, h2, h3, ⟨h4, h5⟩, h6, h7⟩,
    fun ⟨h1, h2, h3, ⟨h4, h5⟩, h6, h7⟩ => ⟨h1, h2, h3, h4, h5, h6, h7⟩⟩

/-- The job that executes. -/
def State.job (s : State) : Option Job := s.clc.executing.map Executing.job

theorem State.job_eq_some {s : State} {j : Job} : s.job = some j ↔ ∃ e, s.clc.executing = some e ∧ e.job = j :=
  Option.map_eq_some_iff

/-- The bytes left of an upload write lie inside the strapped store. -/
def State.WriteInside (s : State) (u : UploadWrite) : Prop := u.startByte + 256 * u.bursts + u.data.length ≤ s.storeBytes

/-- No surface has more than its bytes, nor will have with those of the UPLOAD that executes. -/
def State.LoadsFit (s : State) : Prop :=
  (∀ i taken d loaded, s.job = some (.upload i taken) → s.surface i = .loading d loaded → loaded + taken ≤ d.totalBytes)
    ∧ ∀ i d loaded, s.surface i = .loading d loaded → loaded ≤ d.totalBytes

theorem State.uploadInside_iff {s : State} : s.UploadInside ↔
    (∀ u, s.fsc.upload = some u → s.WriteInside u ∧ ∃ i taken, s.job = some (.upload i taken))
      ∧ (∀ b, s.fsc.burst = some b → b.kind = .load → ∃ u, s.fsc.upload = some u ∧ b.length = min 256 u.data.length)
      ∧ s.LoadsFit := by
  unfold State.UploadInside State.LoadsFit State.WriteInside
  constructor
  · rintro ⟨h1, h2, h3, h4⟩
    refine ⟨fun u hu => ?_, h2, fun i taken d loaded hj => ?_, h4⟩
    · obtain ⟨hin, e, i, taken, he, hj⟩ := h1 u hu
      exact ⟨hin, i, taken, State.job_eq_some.2 ⟨e, he, hj⟩⟩
    · obtain ⟨e, he, hj⟩ := State.job_eq_some.1 hj
      exact h3 e i taken d loaded he hj
  · rintro ⟨h1, h2, h3, h4⟩
    refine ⟨fun u hu => ?_, h2, fun e i taken d loaded he hj => ?_, h4⟩
    · obtain ⟨hin, i, taken, hj⟩ := h1 u hu
      obtain ⟨e, he, hj⟩ := State.job_eq_some.1 hj
      exact ⟨hin, e, i, taken, he, hj⟩
    · exact h3 i taken d loaded (State.job_eq_some.2 ⟨e, he, hj⟩)

section
variable {s t : State}

theorem State.storeBytes_congr (h : t.clc.straps = s.clc.straps) : t.storeBytes = s.storeBytes := by
  unfold State.storeBytes
  rw [h]

/-- The upload's part where the write, the job, the straps and the surfaces are as they were, and every load burst was there. -/
theorem State.UploadInside.congr (h : s.UploadInside) (hupload : t.fsc.upload = s.fsc.upload)
    (hburst : ∀ b, t.fsc.burst = some b → b.kind = .load → s.fsc.burst = some b) (hstraps : t.clc.straps = s.clc.straps)
    (hjob : t.job = s.job) (hsurface : ∀ i, t.surface i = s.surface i) : t.UploadInside := by
  obtain ⟨hwrite, hload, htaken, hloaded⟩ := State.uploadInside_iff.1 h
  refine State.uploadInside_iff.2 ⟨fun u hu => ?_, fun b hb hk => ?_, fun i taken d loaded hj hi => ?_, fun i d loaded hi => ?_⟩
  · obtain ⟨hin, hj⟩ := hwrite u (hupload ▸ hu)
    unfold State.WriteInside at hin ⊢
    rw [State.storeBytes_congr hstraps, hjob]
    exact ⟨hin, hj⟩
  · rw [hupload]
    exact hload b (hburst b hb hk) hk
  · exact htaken i taken d loaded (hjob ▸ hj) (hsurface i ▸ hi)
  · exact hloaded i d loaded (hsurface i ▸ hi)

/-- A burst in progress is one that was there, its fetch perhaps cancelled; a waiting fetch was there. -/
theorem State.QueueInside.congr (h : s.QueueInside)
    (hburst : ∀ b, t.fsc.burst = some b → ∃ c, s.fsc.burst = some c ∧ b.address = c.address ∧ b.length = c.length)
    (hfetches : ∀ i g, t.fsc.fetches.get i = some g → s.fsc.fetches.get i = some g) (hstraps : t.clc.straps = s.clc.straps) :
    t.QueueInside := by
  obtain ⟨hb, hf⟩ := h
  unfold State.QueueInside
  rw [State.storeBytes_congr hstraps]
  refine ⟨fun b hb' => ?_, fun i g hg => hf i g (hfetches i g hg)⟩
  obtain ⟨c, hc, ha, hl⟩ := hburst b hb'
  rw [ha, hl]
  exact hb c hc

/-- The records where each holds sets of values that it held, and the surfaces they name are described as they were. -/
theorem State.RecordsFit.congr (h : s.RecordsFit) (hptab : ∀ i, ∀ v ∈ (t.ptab.get i).valueSets, v ∈ (s.ptab.get i).valueSets)
    (hdesc : ∀ i, (t.surface i).desc = (s.surface i).desc) : t.RecordsFit := fun i v hv => by
  obtain ⟨d, hd, hfit⟩ := h i v (hptab i v hv)
  exact ⟨d, (hdesc _).trans hd, hfit⟩

theorem State.FramesFit.congr (h : s.FramesFit) (hframes : ∀ i, ∀ e ∈ (t.frames.get i).entries, e ∈ (s.frames.get i).entries)
    (hstraps : t.clc.straps = s.clc.straps) : t.FramesFit := fun i e he => by
  rw [hstraps]
  exact h i e (hframes i e he)

theorem State.TransfersInv.same (h : s.TransfersInv) (k : s.SamePicture t) : t.TransfersInv := by
  obtain ⟨hrefs, hpages, hupload, hqueue, hrecords, hframes⟩ := State.transfersInv_iff.1 h
  have hsurface : ∀ i, t.surface i = s.surface i := fun i => by rw [State.surface, k.sdir]; rfl
  exact State.transfersInv_iff.2 ⟨hrefs.congr k.sdir k.ptab, hpages.of_same k.sdir k.straps,
    hupload.congr k.upload (fun b hb _ => k.burst ▸ hb) k.straps k.job hsurface,
    hqueue.congr (fun b hb => ⟨b, k.burst ▸ hb, rfl, rfl⟩) (fun i g hg => by rwa [k.fetches] at hg) k.straps,
    hrecords.congr (fun i v hv => by rwa [k.ptab] at hv) (fun i => by rw [hsurface]),
    hframes.congr (fun i e he => by rwa [k.frames] at he) k.straps⟩

theorem State.TransfersInv.changeRecords (h : s.TransfersInv) {f : PlacementId → Placement → Placement × List SurfaceId}
    (hf : Conserves f) : (s.changeRecords f).TransfersInv := by
  obtain ⟨hrefs, hpages, hupload, hqueue, hrecords, hframes⟩ := State.transfersInv_iff.1 h
  have hsurface : ∀ i, (s.changeRecords f).surface i = s.surface i := (State.Chained.records .refl hf).surface
  exact State.transfersInv_iff.2 ⟨hrefs.changeRecords hf, hpages.congr (fun i => .inl (by rw [hsurface])) rfl,
    hupload.congr rfl (fun _ hb _ => hb) rfl rfl hsurface, hqueue.congr (fun b hb => ⟨b, hb, rfl, rfl⟩) (fun _ _ hg => hg) rfl,
    hrecords.congr (fun i v hv => (hf i _).2 v (by rwa [State.changeRecords_get] at hv)) (fun i => by rw [hsurface]),
    hframes.congr (fun _ _ he => he) rfl⟩

theorem State.TransfersInv.chained (h : s.TransfersInv) (k : s.Chained t) : t.TransfersInv :=
  k.keeps h (fun _ _ hsame hu => hu.same hsame) fun _ _ hf hu => hu.changeRecords hf

end

/-! ### What a line's runs reach -/

theorem Desc.totalBytes_le (d : Desc) : d.totalBytes ≤ d.pageCount * 4096 := by
  have : d.pageCount = (d.totalBytes + 4095) / 4096 := rfl
  omega

/-- A pixel column and row of a surface end inside its bytes. -/
theorem pixel_end_le {d : Desc} {column row : Nat} (hc : column < d.width) (hr : row < d.height) :
    (row * d.width + column + 1) * d.format.bytes ≤ d.totalBytes := by
  have hpixels : row * d.width + column + 1 ≤ d.height * d.width := by
    calc row * d.width + column + 1 ≤ row * d.width + d.width := by omega
      _ = (row + 1) * d.width := by rw [Nat.add_mul, Nat.one_mul]
      _ ≤ d.height * d.width := Nat.mul_le_mul_right _ hr
  calc (row * d.width + column + 1) * d.format.bytes ≤ d.height * d.width * d.format.bytes := Nat.mul_le_mul_right _ hpixels
    _ = d.totalBytes := by unfold Desc.totalBytes; ring

/-- The run of an entry that fits its surface lies inside the store (R25, R135). -/
theorem Entry.FitsIn.run_inside {pages : Nat} {e : Entry} (h : e.FitsIn pages) {f : FrameRec} {py : Nat} {r : Nat × Nat}
    (hr : e.run f py = some r) : r.1 + r.2 ≤ pages * 4096 := by
  obtain ⟨d, hd, ⟨hdw, hdh, hsw, hsh, hcells, hX, hY, hwidth, hheight⟩, hcell, hpages⟩ := h
  by_cases hmeets : e.Meets f py
  · rw [Entry.run_some hd hmeets] at hr
    cases hr
    obtain ⟨_, hy, hy', hx⟩ := hmeets
    have hfirst : e.values.dx ≤ max f.originX e.values.dx := Nat.le_max_right _ _
    have hbeyond : min (f.originX + f.panelW) (e.values.dx + e.values.dw) ≤ e.values.dx + e.values.dw := Nat.min_le_right _ _
    generalize max f.originX e.values.dx = first at *
    generalize min (f.originX + f.panelW) (e.values.dx + e.values.dw) = beyond at *
    obtain ⟨_, hlast⟩ := sourceColumn_inside (x := beyond - 1) hsw hX (by omega) (by omega)
    obtain ⟨_, hrow⟩ := sourceRow_inside hsh hY hy hy'
    have hmono := sourceColumn_mono e.values (show first ≤ beyond - 1 by omega)
    have hrows : e.cell * d.cellHeight + sourceRow e.values (f.originY + py) < d.height := by
      have h1 : (e.cell + 1) * d.cellHeight ≤ d.cells * d.cellHeight := Nat.mul_le_mul_right _ hcell
      have h2 : d.cells * d.cellHeight ≤ d.height := Nat.mul_div_le _ _
      rw [Nat.add_mul, Nat.one_mul] at h1
      have h3 : sourceRow e.values (f.originY + py) < d.cellHeight := Nat.lt_of_lt_of_le hrow hheight
      omega
    have hend := pixel_end_le (d := d) (column := sourceColumn e.values (beyond - 1)) (by omega) hrows
    have hbytes := d.totalBytes_le
    have hstore : (d.basePage + d.pageCount) * 4096 ≤ pages * 4096 := Nat.mul_le_mul_right _ hpages
    obtain ⟨k, hk⟩ := Nat.exists_eq_add_of_le hmono
    have hlen : sourceColumn e.values (beyond - 1) + 1 - sourceColumn e.values first = k + 1 := by omega
    rw [hk] at hend
    rw [Nat.add_mul] at hstore
    simp only [pixelAddress, hlen, show pageBytes = 4096 from rfl]
    refine Nat.le_trans ?_ hstore
    rw [Nat.add_assoc, ← Nat.add_mul, Nat.add_assoc _ _ (k + 1), ← Nat.add_assoc _ k 1, ← Nat.add_assoc _ _ 1]
    exact Nat.add_le_add_left (Nat.le_trans hend hbytes) _
  · rw [Entry.run_none (.inr hmeets)] at hr
    cases hr

theorem lineRuns_inside {pages : Nat} {f : FrameRec} (h : ∀ e ∈ f.entries, e.FitsIn pages) {py : Nat} {r : Nat × Nat}
    (hr : r ∈ lineRuns f py) : r.1 + r.2 ≤ pages * 4096 := by
  obtain ⟨e, he, hrun⟩ := List.mem_filterMap.1 hr
  exact (h e he).run_inside hrun

/-- The cell shown is one of the surface's (R130). -/
theorem cellAt_lt (v : Values) {cells : Nat} (h : 1 ≤ cells) (age : Nat) : cellAt v cells age < cells := by
  unfold cellAt
  simp only
  split
  · exact Nat.mod_lt _ h
  · omega
  · omega

section
variable {s : State}

/-- What is drawn of a record fits its surface. -/
theorem State.TransfersInv.entryOf (h : s.TransfersInv) {f : Frame} {id : PlacementId} {e : Entry} (he : s.entryOf f id = some e) :
    e.FitsIn (storePages s.clc.straps.store) := by
  obtain ⟨_, ⟨_, hinside⟩, _, _, hrecords, _⟩ := State.transfersInv_iff.1 h
  have hshown : ∀ v, (s.ptab.get id).shown = some v → v ∈ (s.ptab.get id).valueSets := fun v hv => by
    cases hr : s.ptab.get id with
    | free => rw [hr] at hv; cases hv
    | staged g w => rw [hr] at hv; cases hv
    | live g w a b p => rw [hr] at hv; cases hv; exact Placement.mem_valueSets_live
    | fading g w a b c => rw [hr] at hv; cases hv; exact List.mem_cons_self
  simp only [State.entryOf] at he
  split at he
  · cases he
  · next v hv =>
    cases he
    obtain ⟨d, hd, hfit⟩ := hrecords id v (hshown v hv)
    refine ⟨d, hd, hfit, ?_, hinside _ d hd⟩
    obtain ⟨_, _, _, _, hcells, _⟩ := hfit
    simp only [hd, Option.map_some, Option.getD_some]
    exact cellAt_lt v hcells _

theorem State.TransfersInv.entriesOf (h : s.TransfersInv) {f : Frame} {t : TileId} {e : Entry} (he : e ∈ s.entriesOf f t) :
    e.FitsIn (storePages s.clc.straps.store) := by
  obtain ⟨id, _, hid⟩ := List.mem_filterMap.1 he
  exact h.entryOf hid

/-! ### Grants and requests -/

/-- A change of the store controller's queue and bursts. -/
theorem State.TransfersInv.withFsc (h : s.TransfersInv) {f : Fsc} (hupload : f.upload = s.fsc.upload)
    (hburst : ∀ b, f.burst = some b → b.address + b.length ≤ s.storeBytes)
    (hload : ∀ b, f.burst = some b → b.kind = .load → ∃ u, f.upload = some u ∧ b.length = min 256 u.data.length)
    (hfetches : ∀ t g, f.fetches.get t = some g → ∀ r ∈ g.runs, r.1 + r.2 ≤ s.storeBytes) :
    State.TransfersInv { s with fsc := f } := by
  obtain ⟨hrefs, hpages, hup, hqueue, hrecords, hframes⟩ := State.transfersInv_iff.1 h
  obtain ⟨hwrite, _, hloads⟩ := State.uploadInside_iff.1 hup
  exact State.transfersInv_iff.2 ⟨hrefs.congr rfl rfl, hpages.of_same rfl rfl,
    State.uploadInside_iff.2 ⟨fun u hu => hwrite u (hupload ▸ hu), hload, hloads⟩, ⟨hburst, hfetches⟩, hrecords, hframes⟩

/-- A grant moves bytes of a waiting fetch or of the upload write (R140). -/
theorem State.TransfersInv.granted (h : s.TransfersInv) (now : Nat) : State.TransfersInv { s with fsc := s.fsc.granted now } := by
  obtain ⟨_, _, hup, ⟨hbursts, hfetches⟩, _, _⟩ := State.transfersInv_iff.1 h
  obtain ⟨hwrite, hload, _⟩ := State.uploadInside_iff.1 hup
  rcases s.fsc.granted_cases now with hg | ⟨t, g, he, hg⟩ | ⟨u, hu, hg⟩
  · rw [hg]
    exact h
  · rw [hg]
    refine h.withFsc rfl (fun b hb => ?_) (fun b hb hk => by cases hb; cases hk) hfetches
    cases hb
    rcases s.fsc.earliest_cases with ⟨hnone, _⟩ | ⟨t', g', he', hwaits, _⟩
    · rw [hnone] at he; cases he
    · cases he.symm.trans he'
      have hruns := hfetches t g hwaits
      unfold Fetch.nextBurst
      split
      · exact Nat.zero_le _
      · next a n _ hr =>
        have := hruns (a, n) (by rw [hr]; exact List.mem_cons_self)
        have hmin : min burstBytes n ≤ n := Nat.min_le_right _ _
        simp only at this ⊢
        omega
  · rw [hg]
    obtain ⟨hin, _⟩ := hwrite u hu
    refine h.withFsc rfl (fun b hb => ?_) (fun b hb _ => ?_) hfetches
    · cases hb
      unfold State.WriteInside at hin
      have hmin : u.nextLength ≤ u.data.length := Nat.min_le_right _ _
      have hbyte : u.nextByte = u.startByte + 256 * u.bursts := rfl
      simp only
      omega
    · cases hb
      exact ⟨u, hu, rfl⟩

theorem State.TransfersInv.grant (h : s.TransfersInv) : s.grant.TransfersInv := by
  unfold State.grant
  split
  · exact h
  · exact h.granted _

/-- A requested line's runs lie inside the store (R138, R139). -/
theorem State.TransfersInv.requestLine (h : s.TransfersInv) (t : TileId) (py : Nat) : (s.requestLine t py).TransfersInv := by
  obtain ⟨_, _, hup, ⟨hbursts, hfetches⟩, _, hframes⟩ := State.transfersInv_iff.1 h
  obtain ⟨_, hload, _⟩ := State.uploadInside_iff.1 hup
  have hcmp : State.TransfersInv { s with cmp := (s.requestLine t py).cmp } := by
    obtain ⟨h1, h2, h3, h4, h5, h6⟩ := State.transfersInv_iff.1 h
    exact State.transfersInv_iff.2 ⟨h1.congr rfl rfl, h2.of_same rfl rfl, h3, h4, h5, h6⟩
  refine State.TransfersInv.withFsc (s := { s with cmp := (s.requestLine t py).cmp }) hcmp (f := (s.requestLine t py).fsc) rfl hbursts
    hload fun u g hg r hr => ?_
  have hget : ((s.requestLine t py).fsc.fetches.get u = some g) := hg
  simp only [State.requestLine] at hget
  split at hget
  · rw [Table.get_set] at hget
    split at hget
    · next htu =>
      cases hget
      exact lineRuns_inside (hframes t) hr
    · exact hfetches u g hget r hr
  · exact hfetches u g hget r hr

theorem State.TransfersInv.requestFirstLines (h : s.TransfersInv) : s.requestFirstLines.TransfersInv := by
  unfold State.requestFirstLines
  generalize List.finRange 16 = ts
  induction ts generalizing s with
  | nil => exact h
  | cons t ts ih => exact ih (h.requestLine t 0)

/-! ### Frames -/

/-- A frame that is opened has no entries but those of the tile's active list (R125). -/
theorem State.openFrameOf_entries {old : Table Port 16} {t : TileId} {e : Entry} (he : e ∈ (s.openFrameOf old t).entries) :
    e ∈ s.entriesOf s.csu.frame t := by
  simp only [State.openFrameOf] at he
  split at he
  · exact he
  · cases he

theorem Burst.cancelled_eq (b : Burst) : b.cancelled.address = b.address ∧ b.cancelled.length = b.length
    ∧ (b.cancelled.kind = .load → b.cancelled = b) := by
  unfold Burst.cancelled
  split
  · exact ⟨rfl, rfl, nofun⟩
  · exact ⟨rfl, rfl, fun _ => rfl⟩

theorem Burst.cancelledFor_eq (t : TileId) (b : Burst) : (b.cancelledFor t).address = b.address ∧ (b.cancelledFor t).length = b.length
    ∧ ((b.cancelledFor t).kind = .load → b.cancelledFor t = b) := by
  unfold Burst.cancelledFor
  split
  · exact ⟨rfl, rfl, nofun⟩
  · exact ⟨rfl, rfl, fun _ => rfl⟩

/-- Cancelling fetches takes them from the queue and marks their burst (R145, R147). -/
theorem State.TransfersInv.cancels (h : s.TransfersInv) {f : Fsc} {mark : Burst → Burst} (hupload : f.upload = s.fsc.upload)
    (hburst : f.burst = s.fsc.burst.map mark)
    (hmark : ∀ b, (mark b).address = b.address ∧ (mark b).length = b.length ∧ ((mark b).kind = .load → mark b = b))
    (hfetches : ∀ t g, f.fetches.get t = some g → s.fsc.fetches.get t = some g) : State.TransfersInv { s with fsc := f } := by
  obtain ⟨_, _, hup, ⟨hbursts, hruns⟩, _, _⟩ := State.transfersInv_iff.1 h
  obtain ⟨_, hload, _⟩ := State.uploadInside_iff.1 hup
  refine h.withFsc hupload (fun b hb => ?_) (fun b hb hk => ?_) fun t g hg => hruns t g (hfetches t g hg)
  · rw [hburst] at hb
    obtain ⟨c, hc, rfl⟩ := Option.map_eq_some_iff.1 hb
    obtain ⟨ha, hl, _⟩ := hmark c
    rw [ha, hl]
    exact hbursts c hc
  · rw [hburst] at hb
    obtain ⟨c, hc, rfl⟩ := Option.map_eq_some_iff.1 hb
    have hsame := (hmark c).2.2 hk
    rw [hsame] at hk ⊢
    rw [hupload]
    exact hload c hc hk

theorem State.TransfersInv.cancelFetches (h : s.TransfersInv) : State.TransfersInv { s with fsc := s.fsc.cancelFetches } :=
  h.cancels (mark := Burst.cancelled) rfl rfl Burst.cancelled_eq fun t g hg => by
    rw [show s.fsc.cancelFetches.fetches = Table.replicate 16 none from rfl, Table.get_replicate] at hg
    cases hg

/-- A fetch that leaves the queue was the tile's own. -/
theorem Fsc.dropFetch_get {f : Fsc} {t u : TileId} {g : Fetch} (hg : (f.dropFetch t).fetches.get u = some g) :
    f.fetches.get u = some g := by
  rw [show (f.dropFetch t).fetches = f.fetches.set t none from rfl, Table.get_set] at hg
  split at hg
  · cases hg
  · exact hg

theorem State.TransfersInv.cancelFetch (h : s.TransfersInv) (t : TileId) : State.TransfersInv { s with fsc := s.fsc.cancelFetch t } :=
  h.cancels (mark := Burst.cancelledFor t) rfl rfl (Burst.cancelledFor_eq t) fun _ _ hg => Fsc.dropFetch_get hg

/-- Frames with entries that fit may begin, whatever becomes of the ports, the lines and the events. -/
theorem State.TransfersInv.withFrames (h : s.TransfersInv) (ports : Table Port 16) {frames : Table FrameRec 16} (cmp : Table CmpTile 16)
    (links : Table LinkOut 16) (evb : Evb)
    (hframes : ∀ t, ∀ e ∈ (frames.get t).entries, e.FitsIn (storePages s.clc.straps.store)) :
    State.TransfersInv { s with ports := ports, frames := frames, cmp := cmp, links := links, evb := evb } := by
  obtain ⟨h1, h2, h3, h4, h5, _⟩ := State.transfersInv_iff.1 h
  exact State.transfersInv_iff.2 ⟨h1.congr rfl rfl, h2.of_same rfl rfl, h3, h4, h5, hframes⟩

/-- Only the frames' entries matter of the ports, the lines and the events. -/
theorem State.TransfersInv.withPorts (h : s.TransfersInv) (ports : Table Port 16) (tiles : Table TileRec 16) (evb : Evb) :
    State.TransfersInv { s with ports := ports, tiles := tiles, evb := evb } := by
  obtain ⟨h1, h2, h3, h4, h5, h6⟩ := State.transfersInv_iff.1 h
  exact State.transfersInv_iff.2 ⟨h1.congr rfl rfl, h2.of_same rfl rfl, h3, h4, h5, h6⟩

theorem State.TransfersInv.openFrames (h : s.TransfersInv) (old : Table Port 16) : (s.openFrames old).TransfersInv := by
  refine State.TransfersInv.withFrames (s := { s with fsc := s.fsc.cancelFetches }) h.cancelFetches s.ports
    (frames := (s.openFrames old).frames) (s.openFrames old).cmp (s.openFrames old).links s.evb fun t e he => ?_
  rw [State.openFrames_frames, Table.get_ofFn] at he
  exact h.entriesOf (State.openFrameOf_entries he)

theorem State.TransfersInv.closeBoundary (h : s.TransfersInv) : s.closeBoundary.TransfersInv := by
  have hstepped : (s.stepPorts.report (.frameTick s.csu.frame)).TransfersInv :=
    h.withPorts s.stepPorts.ports s.tiles (s.stepPorts.report (.frameTick s.csu.frame)).evb
  exact ((hstepped.openFrames _).requestFirstLines).grant

theorem State.TransfersInv.portBoundary (h : s.TransfersInv) (t : TileId) : (s.portBoundary t).TransfersInv := by
  rw [s.portBoundary_eq t]
  refine (h.cancelFetch t).withFrames _ _ s.links _ fun u e he => ?_
  rw [Table.get_set] at he
  split at he
  · have hstepped : (s.changePort t (s.portStep t)).TransfersInv :=
      h.withPorts (s.changePort t (s.portStep t)).ports s.tiles (s.changePort t (s.portStep t)).evb
    exact hstepped.entriesOf (State.openFrameOf_entries he)
  · obtain ⟨_, _, _, _, _, hframes⟩ := State.transfersInv_iff.1 h
    exact hframes u e he

/-- A line sent, and its count, leave the entries of every frame. -/
theorem State.TransfersInv.line (h : s.TransfersInv) (t : TileId) (n : Nat) :
    ((((s.atLeast n).sendDueLine t (s.frames.get t).nextLine).advanceLine t).requestLine t ((s.frames.get t).nextLine + 1)).grant.TransfersInv := by
  have hfsc : ∀ py, ((s.atLeast n).sendDueLine t py).fsc = s.fsc ∨ ((s.atLeast n).sendDueLine t py).fsc = s.fsc.cancelFetch t := fun py => by
    simp only [State.sendDueLine]
    split
    · split
      · exact .inl rfl
      · exact .inr rfl
    all_goals exact .inl rfl
  have hsent : ∀ py, ((s.atLeast n).sendDueLine t py).TransfersInv := fun py => by
    have hcancelled : State.TransfersInv { s with fsc := ((s.atLeast n).sendDueLine t py).fsc } := by
      rcases hfsc py with hf | hf <;> rw [hf]
      · exact h
      · exact h.cancelFetch t
    obtain ⟨_, _, _, _, _, hframes⟩ := State.transfersInv_iff.1 hcancelled
    have hframed := State.TransfersInv.withFrames hcancelled s.ports (frames := s.frames) ((s.atLeast n).sendDueLine t py).cmp
      ((s.atLeast n).sendDueLine t py).links ((s.atLeast n).sendDueLine t py).evb hframes
    rw [State.sendDueLine_eq]
    exact hframed.same (State.samePicture_of_eq rfl)
  have hadvanced : (((s.atLeast n).sendDueLine t (s.frames.get t).nextLine).advanceLine t).TransfersInv := by
    obtain ⟨_, _, _, _, _, hframes⟩ := State.transfersInv_iff.1 (hsent (s.frames.get t).nextLine)
    refine (hsent _).withFrames _ _ _ _ fun u e he => hframes u e ?_
    rw [Table.get_modify] at he
    split at he <;> exact he
  exact (hadvanced.requestLine t _).grant

end

/-! ### Commands -/

theorem Except.ok_injective {ε α : Type} {a b : α} (h : (Except.ok a : Except ε α) = .ok b) : a = b := by
  cases h
  rfl

/-- Values that have passed the tests of R45 fit the surface they name. -/
theorem State.checkValues_fits {s : State} {raw : RawValues} {v : Values} (h : s.checkValues raw = .ok v) :
    ∃ d, (s.surface v.surface).desc = some d ∧ v.FitsIn d := by
  unfold State.checkValues at h
  split at h
  · next i m hrange _ _ =>
    have hm : ∃ m', CellMode.ofCode raw.cellMode = some m' := ⟨m, ‹_›⟩
    split at h
    · cases h
    · next d hd =>
      split at h
      · cases h
      · next hsource =>
        split at h
        · cases h
        · next hcell =>
          split at h
          · cases Except.ok_injective h
            have hfit := hrange
            simp only [valuesInRange, within, Bool.and_eq_true, decide_eq_true_eq] at hfit
            simp only [Bool.or_eq_true, decide_eq_true_eq, not_or, Nat.not_lt] at hsource
            have hdw : 1 ≤ raw.dw := by omega
            have hdh : 1 ≤ raw.dh := by omega
            have hsw : 1 ≤ raw.sw := by omega
            have hsh : 1 ≤ raw.sh := by omega
            exact ⟨d, hd, hdw, hdh, hsw, hsh, by omega, rfl, rfl, hsource.1, hsource.2⟩
          · cases h
  · cases h

/-- A placement command's new values fit, and the store's queue is as it was. -/
theorem State.TransfersInv.rewrites {s : State} (h : s.TransfersInv) {i : PlacementId} {r : Placement} {dropped named : List SurfaceId}
    (k : s.Rewrites i r dropped named) : (s.rewrite i r dropped named).TransfersInv := by
  obtain ⟨hrefs, hpages, hupload, hqueue, hrecords, hframes⟩ := State.transfersInv_iff.1 h
  have hsurface : ∀ j, (s.rewrite i r dropped named).surface j = s.surface j := fun j => State.rewrite_surface j
  have heq := s.rewrite_eq i r dropped named
  have hfsc : (s.rewrite i r dropped named).fsc = s.fsc := by rw [heq]
  have hclc : (s.rewrite i r dropped named).clc = s.clc := by rw [heq]
  have hfr : (s.rewrite i r dropped named).frames = s.frames := by rw [heq]
  refine State.transfersInv_iff.2 ⟨k.refsInv hrefs, hpages.congr (fun j => .inl (by rw [hsurface])) (by rw [hclc]),
    hupload.congr (by rw [hfsc]) (fun b hb _ => by rwa [hfsc] at hb) (by rw [hclc]) (by rw [State.job, hclc]; rfl) hsurface,
    hqueue.congr (fun b hb => ⟨b, by rwa [hfsc] at hb, rfl, rfl⟩) (fun t g hg => by rwa [hfsc] at hg) (by rw [hclc]),
    fun j v hv => ?_, hframes.congr (fun t e he => by rwa [hfr] at he) (by rw [hclc])⟩
  rw [hsurface]
  rw [State.rewrite_ptab, Table.get_set] at hv
  split at hv
  · rcases k.values v hv with hv | ⟨raw, hraw⟩
    · exact hrecords i v hv
    · exact State.checkValues_fits hraw
  · exact hrecords j v hv

/-- A surface named by a record's set of values is in one of its slots (R32). -/
theorem Placement.surface_mem_slots {r : Placement} {v : Values} (h : v ∈ r.valueSets) : v.surface ∈ r.slots := by
  cases r with
  | free => cases h
  | staged g w => cases List.mem_singleton.1 h; exact List.mem_cons_self
  | fading g w a b c => cases List.mem_singleton.1 h; exact List.mem_cons_self
  | live g w a b p =>
    match p, h with
    | none, h => cases List.mem_singleton.1 h; exact List.mem_cons_self
    | some .retire, h => cases List.mem_singleton.1 h; exact List.mem_cons_self
    | some (.replace new restart), h =>
      simp only [Placement.valueSets, List.mem_cons, List.not_mem_nil, or_false] at h
      rcases h with rfl | rfl <;> simp [Placement.slots, Pending.surfaces]

/-- A surface that a record's values name is counted (R32). -/
theorem State.slotCount_pos {s : State} {i : PlacementId} {v : Values} (h : v ∈ (s.ptab.get i).valueSets) :
    0 < s.slotCount v.surface :=
  List.count_pos_iff.2 (List.mem_flatMap.2 ⟨_, Table.get_mem_rows s.ptab i, Placement.surface_mem_slots h⟩)

/-- A surface that no slot names may be replaced while no command executes, by one that has loaded nothing. -/
theorem State.TransfersInv.setSurface {s : State} (h : s.TransfersInv) (hidle : s.clc.executing = none) {i : SurfaceId} {st : SurfaceState}
    (hunnamed : s.slotCount i = 0) (hpages : (s.setSurface i st).PagesInv) (hst : ∀ d loaded, st = .loading d loaded → loaded = 0) :
    (s.setSurface i st).TransfersInv := by
  obtain ⟨hrefs, _, hupload, hqueue, hrecords, hframes⟩ := State.transfersInv_iff.1 h
  obtain ⟨hwrite, hload, htaken, hloaded⟩ := State.uploadInside_iff.1 hupload
  have hjob : s.job = none := by rw [State.job, hidle]; rfl
  refine State.transfersInv_iff.2 ⟨hrefs.setSurface fun _ => .inr (by rw [hrefs.1 i, hunnamed]), hpages,
    State.uploadInside_iff.2 ⟨hwrite, hload, fun j taken d loaded hj _ => ?_, fun j d loaded hj => ?_⟩, hqueue, fun j v hv => ?_, hframes⟩
  · exact absurd (hjob.symm.trans hj) nofun
  · rw [State.setSurface_surface] at hj
    split at hj
    · rw [hst d loaded hj]
      exact Nat.zero_le _
    · exact hloaded j d loaded hj
  · obtain ⟨d, hd, hfit⟩ := hrecords j v hv
    refine ⟨d, ?_, hfit⟩
    rw [State.setSurface_surface, if_neg]
    · exact hd
    · rintro rfl
      exact absurd hunnamed (Nat.ne_of_gt (State.slotCount_pos (s := s) hv))

/-- The same part with another command executing. -/
theorem State.TransfersInv.withExecuting {s : State} (h : s.TransfersInv) (hidle : s.clc.executing = none) (clc : Clc)
    (hstraps : clc.straps = s.clc.straps) (hjob : ∀ i taken, clc.executing.map Executing.job ≠ some (.upload i taken)) :
    State.TransfersInv { s with clc := clc } := by
  obtain ⟨hrefs, hpages, hupload, hqueue, hrecords, hframes⟩ := State.transfersInv_iff.1 h
  obtain ⟨hwrite, hload, _, hloaded⟩ := State.uploadInside_iff.1 hupload
  refine State.transfersInv_iff.2 ⟨hrefs.congr rfl rfl, hpages.of_same rfl hstraps,
    State.uploadInside_iff.2 ⟨fun u hu => ?_, hload, fun j taken d loaded hj _ => absurd hj (hjob j taken), hloaded⟩,
    hqueue.congr (fun b hb => ⟨b, hb, rfl, rfl⟩) (fun _ _ hg => hg) hstraps, hrecords, hframes.congr (fun _ _ he => he) hstraps⟩
  obtain ⟨_, i, taken, hj⟩ := hwrite u hu
  have hnone : s.job = none := by rw [State.job, hidle]; rfl
  exact absurd (hnone.symm.trans hj) nofun

/-- The end of the command that executes, where it is no UPLOAD. -/
theorem State.TransfersInv.returnResult {s : State} (h : s.TransfersInv) (hjob : ∀ i taken, s.job ≠ some (.upload i taken)) (status : Status)
    (payload : Payload) : (s.returnResult status payload).TransfersInv := by
  obtain ⟨hrefs, hpages, hupload, hqueue, hrecords, hframes⟩ := State.transfersInv_iff.1 h
  obtain ⟨hwrite, hload, _, hloaded⟩ := State.uploadInside_iff.1 hupload
  obtain ⟨heq, hstraps, hnone⟩ := s.returnResult_eq status payload
  generalize s.returnResult status payload = t at heq hstraps hnone ⊢
  have ht : t = { s with clc := t.clc } := heq
  rw [ht]
  refine State.transfersInv_iff.2 ⟨hrefs.congr rfl rfl, hpages.of_same rfl hstraps,
    State.uploadInside_iff.2 ⟨fun u hu => ?_, hload, fun j taken d loaded hj _ => ?_, hloaded⟩,
    hqueue.congr (fun b hb => ⟨b, hb, rfl, rfl⟩) (fun _ _ hg => hg) hstraps, hrecords, hframes.congr (fun _ _ he => he) hstraps⟩
  · obtain ⟨_, i, taken, hj⟩ := hwrite u hu
    exact absurd hj (hjob i taken)
  · have hj' : t.clc.executing.map Executing.job = some (.upload j taken) := hj
    rw [hnone] at hj'
    cases hj'

theorem uploadEnd_le {start loaded n total ends bytes : Nat} (hends : total ≤ ends) (hbytes : start + ends ≤ bytes)
    (hloaded : loaded ≤ total) (hn : n ≤ total - loaded) : start + loaded + 0 + n ≤ bytes := by omega

/-- An upload write handed over while no command executes, once its UPLOAD executes (R27). -/
theorem State.TransfersInv.uploads {s : State} (h : s.TransfersInv) (hidle : s.clc.executing = none) {i : SurfaceId} {d : Desc}
    {loaded : Nat} (hi : s.surface i = .loading d loaded) (chunk : List Byte) (code : Nat) (broadcast : Bool) :
    (State.finish code broadcast (s.handOverUpload (uploadOf d loaded chunk),
      .begins (.upload i (uploadOf d loaded chunk).data.length))).TransfersInv := by
  obtain ⟨hrefs, hpages, hupload, hqueue, hrecords, hframes⟩ := State.transfersInv_iff.1 h
  obtain ⟨hwrite, hload, _, hloaded⟩ := State.uploadInside_iff.1 hupload
  have hnone : s.job = none := by rw [State.job, hidle]; rfl
  have hnowrite : ∀ u, s.fsc.upload ≠ some u := fun u hu => by
    obtain ⟨_, j, taken, hj⟩ := hwrite u hu
    exact absurd (hnone.symm.trans hj) nofun
  have hall := hloaded i d loaded hi
  have hlen : (uploadOf d loaded chunk).data.length ≤ d.totalBytes - loaded := List.length_take_le _ _
  have hbegun : State.TransfersInv { s with
      fsc := { s.fsc with upload := some (uploadOf d loaded chunk) }
      clc := { s.clc with executing := some ⟨code, broadcast, false, .upload i (uploadOf d loaded chunk).data.length⟩ } } := by
    refine State.transfersInv_iff.2 ⟨hrefs.congr rfl rfl, hpages.of_same rfl rfl,
      State.uploadInside_iff.2 ⟨fun u hu => ?_, fun b hb hk => ?_, fun j taken e l hj hjl => ?_, hloaded⟩, hqueue, hrecords, hframes⟩
    · cases hu
      refine ⟨?_, i, _, rfl⟩
      have hfit := hpages.2 i d (by rw [hi]; rfl)
      have hbytes := d.totalBytes_le
      have hstore : (d.basePage + d.pageCount) * 4096 ≤ s.storeBytes := Nat.mul_le_mul_right _ hfit
      rw [Nat.add_mul] at hstore
      exact uploadEnd_le hbytes hstore hall hlen
    · obtain ⟨u, hu, _⟩ := hload b hb hk
      exact absurd hu (hnowrite u)
    · cases hj
      cases hi.symm.trans hjl
      omega
  exact hbegun.grant

theorem State.TransfersInv.keepValues {s : State} (h : s.TransfersInv) : s.keepValues.TransfersInv := by
  obtain ⟨_, hpages, _, _, _, _⟩ := State.transfersInv_iff.1 h
  refine State.transfersInv_iff.2 ⟨s.refsInv_keepValues, hpages.keepValues,
    State.uploadInside_iff.2 ⟨nofun, nofun, fun i taken d loaded hj _ => absurd hj nofun, fun i d loaded hi => ?_⟩, ⟨nofun, fun t g hg => ?_⟩, fun i v hv => ?_, fun t e he => ?_⟩
  · have hkept : (s.sdir.get i).kept.state = .loading d loaded := by
      have := hi
      simp only [State.surface, State.keepValues, Table.get_mapIdx] at this
      exact this
    unfold SurfaceRec.kept at hkept
    split at hkept <;> cases hkept
  · have : (Table.replicate 16 (none : Option Fetch)).get t = some g := hg
    rw [Table.get_replicate] at this
    cases this
  · have : v ∈ ((Table.replicate 128 Placement.free).get i).valueSets := hv
    rw [Table.get_replicate] at this
    cases this
  · have : e ∈ ((s.frames.mapIdx fun _ (f : FrameRec) => { f with entries := [] }).get t).entries := he
    rw [Table.get_mapIdx] at this
    cases this

theorem State.transfersInv_afterFullReset (s : State) (straps : Straps) (pins : Pins) (e : Nat) :
    (s.afterFullReset straps pins e).TransfersInv := by
  have hempty := s.afterFullReset_surface straps pins e
  refine State.transfersInv_iff.2 ⟨s.refsInv_afterFullReset straps pins e, State.pagesInv_of_empty hempty,
    State.uploadInside_iff.2 ⟨nofun, nofun, And.intro (fun i taken d loaded hj => nomatch hj) fun i d loaded hi => ?_⟩, ⟨nofun, fun t g hg => ?_⟩, fun i v hv => ?_, fun t e he => ?_⟩
  · rw [hempty i] at hi
    cases hi
  · have : (Table.replicate 16 (none : Option Fetch)).get t = some g := hg
    rw [Table.get_replicate] at this
    cases this
  · have : v ∈ ((Table.replicate 128 Placement.free).get i).valueSets := hv
    rw [Table.get_replicate] at this
    cases this
  · have : e ∈ ((Table.replicate 16 FrameRec.powerOn).get t).entries := he
    rw [Table.get_replicate] at this
    cases this

/-- A command that leaves what the invariant reads, answered at once. -/
theorem State.TransfersInv.answered {s t : State} (h : s.TransfersInv) (hidle : s.clc.executing = none) (k : s.SamePicture t)
    (code : Nat) (broadcast : Bool) (status : Status) (payload : Payload) :
    (State.finish code broadcast (t, .done status payload)).TransfersInv := by
  have hjob : t.clc.executing.map Executing.job = none := by rw [k.job, hidle]; rfl
  exact (h.same k).withExecuting (Option.map_eq_none_iff.1 hjob) _ rfl nofun

theorem State.TransfersInv.command {s t : State} {r : Result} (h : s.TransfersInv) (hidle : s.clc.executing = none)
    (k : s.ByCommand t r) (code : Nat) (broadcast : Bool) : (State.finish code broadcast (t, r)).TransfersInv := by
  have done : ∀ {t : State} (status : Status) (payload : Payload), t.TransfersInv → t.clc = s.clc →
      (State.finish code broadcast (t, .done status payload)).TransfersInv := fun status payload ht hclc =>
    ht.withExecuting (by rw [hclc, hidle]) _ rfl nofun
  obtain ⟨hrefs, hpages, _, _, _, _⟩ := State.transfersInv_iff.1 h
  cases k with
  | answers status payload k => exact h.answered hidle k.samePicture code broadcast status payload
  | tiles tiles status payload => exact done status payload (h.withPorts s.ports tiles s.evb) rfl
  | power ts on warmUp status payload =>
    refine done status payload (t := (s.storeWarmUp ts warmUp).switchPorts ts on) ?_ ?_
    · rw [State.storeWarmUp_eq]
      exact h.withPorts _ _ _
    · rw [State.storeWarmUp_eq]
      rfl
  | stops status payload => exact h.answered hidle (s.samePicture_enterPhase _) code broadcast status payload
  | starts => exact (h.same s.samePicture_beginStart).withExecuting hidle _ rfl nofun
  | resets => exact h.keepValues.same (State.samePicture_of_eq rfl)
  | defines i d status payload hnamed hfits hoverlap =>
    refine done status payload (h.setSurface hidle ?_ (hpages.defines hfits hoverlap) fun d' loaded he => ?_) rfl
    · by_cases he : s.surface i = .empty
      · exact hrefs.2 i he
      · rw [SurfaceRec.named_of_ne_empty he] at hnamed
        exact (hrefs.1 i).symm.trans (Nat.eq_zero_of_not_pos hnamed)
    · cases he
      rfl
  | drops i status payload hunnamed =>
    refine done status payload (h.setSurface hidle ((hrefs.1 i).symm.trans (Nat.eq_zero_of_not_pos hunnamed)) ?_ nofun) rfl
    exact hpages.congr (fun j => by rw [State.setSurface_surface]; split <;> simp [SurfaceState.desc]) rfl
  | uploads i d loaded chunk hi => exact h.uploads hidle hi chunk code broadcast
  | rewrites i r dropped named status payload k => exact done status payload (h.rewrites k) (by rw [State.rewrite_eq])
  | setsGroup groups status payload => exact h.answered hidle (State.samePicture_of_eq rfl) code broadcast status payload
  | makesDue g status payload => exact h.answered hidle (State.samePicture_of_eq rfl) code broadcast status payload
  | arms g status payload => exact h.answered hidle (State.samePicture_of_eq rfl) code broadcast status payload
  | withdraws g status payload => exact h.answered hidle (State.samePicture_of_eq rfl) code broadcast status payload

/-! ### The end of a burst -/

section
variable {s : State}

theorem State.TransfersInv.freed (h : s.TransfersInv) (b : Burst) : (s.freed b).TransfersInv := by
  obtain ⟨_, _, _, ⟨_, hfetches⟩, _, _⟩ := State.transfersInv_iff.1 h
  have hfree : State.TransfersInv { s with fsc := { s.fsc with burst := none } } := h.withFsc rfl nofun nofun hfetches
  exact hfree.same (State.samePicture_of_eq rfl)

/-- What is left of a fetch's runs lies where they did (R139). -/
theorem Fetch.runsAfterBurst_inside {g : Fetch} {bound : Nat} (h : ∀ r ∈ g.runs, r.1 + r.2 ≤ bound) {r : Nat × Nat}
    (hr : r ∈ g.runsAfterBurst) : r.1 + r.2 ≤ bound := by
  unfold Fetch.runsAfterBurst at hr
  split at hr
  · cases hr
  · next a n rest hruns =>
    have hfirst := h (a, n) (by rw [hruns]; exact List.mem_cons_self)
    have hrest : ∀ x ∈ rest, x.1 + x.2 ≤ bound := fun x hx => h x (by rw [hruns]; exact List.mem_cons_of_mem _ hx)
    split at hr
    · exact hrest r hr
    · rcases List.mem_cons.1 hr with rfl | hr
      · simp only at hfirst ⊢
        omega
      · exact hrest r hr

theorem State.TransfersInv.fetchBurstDone (h : s.TransfersInv) (hfree : s.fsc.burst = none) (t : TileId) :
    (s.fetchBurstDone t).TransfersInv := by
  obtain ⟨_, _, _, ⟨_, hfetches⟩, _, hframes⟩ := State.transfersInv_iff.1 h
  unfold State.fetchBurstDone
  split
  · exact h
  · next g hg =>
    have hqueue : ∀ f : Fsc, f.upload = s.fsc.upload → f.burst = s.fsc.burst →
        (∀ u k, f.fetches.get u = some k → ∀ r ∈ k.runs, r.1 + r.2 ≤ s.storeBytes) → State.TransfersInv { s with fsc := f } :=
      fun f hu hb hf => h.withFsc hu (fun b hb' => by rw [hb, hfree] at hb'; cases hb') (fun b hb' => by rw [hb, hfree] at hb'; cases hb') hf
    refine State.TransfersInv.withFrames (s := { s with
      fsc := if g.runsAfterBurst = [] then s.fsc.dropFetch t
        else { s.fsc with fetches := s.fsc.fetches.set t (some { g with runs := g.runsAfterBurst }) } })
      (hqueue _ ?_ ?_ fun u k hk => ?_) s.ports (frames := s.frames) _ s.links s.evb hframes
    · split <;> rfl
    · split <;> rfl
    · split at hk
      · exact hfetches u k (Fsc.dropFetch_get hk)
      · rw [Table.get_set] at hk
        split at hk
        · next htu =>
          cases hk
          exact fun r hr => Fetch.runsAfterBurst_inside (hfetches t g hg) hr
        · exact hfetches u k hk

/-- After the last load burst the write is gone, and the surface has no more than its bytes (R28). -/
theorem State.TransfersInv.completes (h : s.TransfersInv) (hfree : s.fsc.burst = none) {w : State}
    (hw : w = { s with store := w.store, fsc := { s.fsc with upload := w.fsc.upload } }) : w.completeUpload.TransfersInv := by
  obtain ⟨hrefs, hpages, hupload, ⟨_, hfetches⟩, hrecords, hframes⟩ := State.transfersInv_iff.1 h
  obtain ⟨_, _, htaken, hloaded⟩ := State.uploadInside_iff.1 hupload
  have hsdir : w.sdir = s.sdir := by rw [hw]
  have hptab : w.ptab = s.ptab := by rw [hw]
  have hclc : w.clc = s.clc := by rw [hw]
  have hframesEq : w.frames = s.frames := by rw [hw]
  have hfsc : w.fsc = { s.fsc with upload := w.fsc.upload } := congrArg State.fsc hw
  obtain ⟨heq, hstraps⟩ := w.completeUpload_eq
  have hstraps' : w.completeUpload.clc.straps = s.clc.straps := hstraps.trans (by rw [hclc])
  have hsurface : ∀ i, w.surface i = s.surface i := fun i => by rw [State.surface, hsdir]; rfl
  have hdesc : ∀ i, (w.completeUpload.surface i).desc = (s.surface i).desc := fun i => by rw [w.completeUpload_desc, hsurface]
  have hend : w.completeUpload.fsc = w.fsc.endUpload := congrArg State.fsc heq
  have hnoburst : w.completeUpload.fsc.burst = none := by rw [hend, hfsc]; exact hfree
  have hqueue : ∀ t, w.completeUpload.fsc.fetches.get t = s.fsc.fetches.get t := fun t => by rw [hend, hfsc]; rfl
  have hptab' : w.completeUpload.ptab = s.ptab := (congrArg State.ptab heq).trans hptab
  have hframes' : w.completeUpload.frames = s.frames := (congrArg State.frames heq).trans hframesEq
  have hwrefs : w.RefsInv := hrefs.congr hsdir hptab
  refine State.transfersInv_iff.2 ⟨hwrefs.completeUpload, hpages.congr (fun i => .inl (hdesc i)) hstraps',
    State.uploadInside_iff.2 ⟨fun u hu => ?_, fun b hb => ?_, fun i taken d loaded hj hi => ?_, fun i d loaded hi => ?_⟩,
    ⟨fun b hb => ?_, fun t g hg => ?_⟩, hrecords.congr (fun i v hv => by rwa [hptab'] at hv) hdesc,
    hframes.congr (fun t e he => by rwa [hframes'] at he) hstraps'⟩
  · rw [hend] at hu
    cases hu
  · rw [hnoburst] at hb
    cases hb
  · rcases w.uploadJob_cases with ⟨e, k, n, he, hjob⟩ | hother
    · rw [w.completeUpload_upload he hjob] at hj
      have hnone := (State.returnResult_eq (if ((w.surface k).loadedMore n).isReady then
          ((State.setSurface k ((w.surface k).loadedMore n) { w with fsc := w.fsc.endUpload }).report (.surfaceReady k)).retestRdy
        else State.setSurface k ((w.surface k).loadedMore n) { w with fsc := w.fsc.endUpload }) .ok
          (.uploaded n ((w.surface k).loadedMore n).loadedCount)).2.2
      unfold State.job at hj
      rw [hnone] at hj
      cases hj
    · rw [w.completeUpload_other hother] at hj
      obtain ⟨e, he, hjob⟩ := State.job_eq_some.1 hj
      exact absurd hjob (hother e i taken he)
  · rcases w.completeUpload_surface i with hsame | ⟨e, taken, he, hjob, hmore⟩
    · rw [hsame, hsurface] at hi
      exact hloaded i d loaded hi
    · rw [hmore, hsurface] at hi
      cases hst : s.surface i with
      | empty => rw [hst] at hi; cases hi
      | ready _ => rw [hst] at hi; cases hi
      | loading d' loaded' =>
        rw [hst] at hi
        simp only [SurfaceState.loadedMore] at hi
        split at hi
        · cases hi
        · cases hi
          exact htaken i taken d loaded' (State.job_eq_some.2 ⟨e, by rwa [hclc] at he, hjob⟩) hst
  · rw [hnoburst] at hb
    cases hb
  · rw [State.storeBytes_congr hstraps']
    exact hfetches t g ((hqueue t).symm.trans hg)

/-- A load burst of the upload write leaves its other bytes where they were (R143). -/
theorem State.TransfersInv.loadBurstDone (h : s.TransfersInv) (hfree : s.fsc.burst = none) {b : Burst}
    (hlength : ∀ u, s.fsc.upload = some u → b.length = min 256 u.data.length) : (s.loadBurstDone b).TransfersInv := by
  obtain ⟨hrefs, hpages, hupload, ⟨_, hfetches⟩, hrecords, hframes⟩ := State.transfersInv_iff.1 h
  obtain ⟨hwrite, _, hloads⟩ := State.uploadInside_iff.1 hupload
  cases hu : s.fsc.upload with
  | none => rw [s.loadBurstDone_none hu]; exact h
  | some u =>
    rw [s.loadBurstDone_some hu]
    split
    · exact h.completes hfree rfl
    · next hleft =>
      obtain ⟨hin, hj⟩ := hwrite u hu
      refine State.transfersInv_iff.2 ⟨hrefs.congr rfl rfl, hpages.of_same rfl rfl,
        State.uploadInside_iff.2 ⟨fun v hv => ?_, fun c hc => ?_, hloads⟩, ⟨fun c hc => ?_, hfetches⟩, hrecords, hframes⟩
      · cases hv
        refine ⟨?_, hj⟩
        have hlen := hlength u hu
        have hmore : b.length < u.data.length := Nat.not_le.1 fun hle => hleft (List.drop_eq_nil_of_le hle)
        unfold State.WriteInside at hin ⊢
        simp only [List.length_drop]
        have hsame : (s.written b u).storeBytes = s.storeBytes := rfl
        omega
      · rw [show (s.written b u).fsc.burst = s.fsc.burst from rfl, hfree] at hc
        cases hc
      · rw [show (s.written b u).fsc.burst = s.fsc.burst from rfl, hfree] at hc
        cases hc

theorem State.TransfersInv.endBurst (h : s.TransfersInv) {b : Burst} (hb : s.fsc.burst = some b) : (s.endBurst b).TransfersInv := by
  obtain ⟨_, _, hupload, _, _, _⟩ := State.transfersInv_iff.1 h
  obtain ⟨_, hload, _⟩ := State.uploadInside_iff.1 hupload
  match hk : b.kind with
  | .fetch t false =>
    rw [s.endBurst_fetch hk]
    exact ((h.freed b).fetchBurstDone rfl t).grant
  | .fetch t true =>
    rw [s.endBurst_stale hk]
    exact (h.freed b).grant
  | .load =>
    rw [s.endBurst_load hk]
    refine ((h.freed b).loadBurstDone rfl fun u hu => ?_).grant
    obtain ⟨u', hu', hlen⟩ := hload b hb hk
    cases hu.symm.trans hu'
    exact hlen

end

/-! ### Every outcome -/

theorem State.TransfersInv.draws {s t : State} (h : s.TransfersInv) (k : s.Draws t) : t.TransfersInv := by
  cases k with
  | chained k => exact h.chained k
  | closes k => exact (h.chained k).closeBoundary
  | command code broadcast hidle hsame k =>
    have hjob := hsame.job
    rw [hidle, Option.map_none] at hjob
    exact (h.same hsame).command (Option.map_eq_none_iff.1 hjob) k code broadcast
  | fullReset straps pins e => exact s.transfersInv_afterFullReset straps pins e
  | keepReset pins e =>
    exact (State.TransfersInv.keepValues (h.same (t := { s with pins := pins }) (State.samePicture_of_eq rfl))).same
      (State.samePicture_of_eq rfl)
  | running e he hjob =>
    refine (h.same (s.samePicture_enterPhase _)).returnResult (fun i taken hj => ?_) _ _
    obtain ⟨e', he', hj⟩ := State.job_eq_some.1 hj
    cases he.symm.trans he'
    rw [hjob] at hj
    cases hj
  | line t n => exact h.line t n
  | burst b hb => exact h.endBurst hb
  | window n =>
    obtain ⟨_, _, hupload, ⟨hbursts, hfetches⟩, _, _⟩ := State.transfersInv_iff.1 h
    obtain ⟨_, hload, _⟩ := State.uploadInside_iff.1 hupload
    have hwindow : State.TransfersInv { s with fsc := s.fsc.newWindow } := h.withFsc rfl hbursts hload hfetches
    exact (hwindow.same (t := { s.atLeast n with fsc := s.fsc.newWindow }) (State.samePicture_of_eq rfl)).grant
  | warmedUp t n endsAt =>
    exact (h.withPorts ((s.atLeast n).changePort t ((s.ports.get t).enter (.training 1 0), [.training 1 0])).ports s.tiles
      ((s.atLeast n).changePort t ((s.ports.get t).enter (.training 1 0), [.training 1 0])).evb).same (State.samePicture_of_eq rfl)
  | portBoundary t => exact h.portBoundary t
  | status t locked temperature hot => exact h.withPorts _ s.tiles _

theorem transfersInv_kept : StepKeeps State.TransfersInv :=
  stepKeeps_of_draws (fun _ _ k h => h.same k) fun _ _ k h => h.draws k

/-- A part whose bursts lie inside the strapped store does not fault (entry 5). -/
theorem State.TransfersInv.step_ne_fault {s : State} (h : s.TransfersInv) (f : Fault) : step s ≠ .fault f := by
  intro hstep
  unfold step at hstep
  split at hstep
  · cases hstep
  · next i rest _ =>
    have hsettles := exec_settles { s with pending := rest } i
    rw [hstep] at hsettles
    obtain ⟨b, hb, houtside, _⟩ := hsettles
    obtain ⟨_, _, _, ⟨hbursts, _⟩, _, _⟩ := State.transfersInv_iff.1 h
    have hinside : s.burstInside b = true := decide_eq_true (hbursts b hb)
    exact absurd (hinside.symm.trans houtside) nofun

/-- Settles O55: each outcome of a row keeps the pages apart, the contents canonical and every transfer inside; only a burst outside
the store could fault. -/
theorem storeAndPagesKept : Obligations.StoreAndPagesKept := by
  unfold Obligations.StoreAndPagesKept
  exact ⟨pagesInv_kept, memoryInv_kept, transfersInv_kept, fun s f h => h.step_ne_fault f⟩

end Sys2Proof.Machine

/-! SUPPORT. Every step keeps the ranges of the ports, the tiles, the frames and the underrun counts: PortRangesKept. -/

namespace Sys2Proof.Machine

/-! ### The parts of PortsInv -/

/-- The ranges of a port record (R151). -/
def Port.InRange (p : Port) : Prop := p.missed ≤ 3 ∧ ∀ a n, p.state = .training a n → 1 ≤ a ∧ a ≤ 3 ∧ n ≤ 6

/-- The ranges of a tile record (R150). -/
def TileRec.InRange (r : TileRec) : Prop := r.level ≤ 256 ∧ 50 ≤ r.warmUp ∧ r.warmUp ≤ 1000 ∧ r.warmUp % 10 = 0

/-- A port's state in which it is sent frames (R151). -/
def PortState.SendsFrames (st : PortState) : Prop := st = .up ∨ ∃ stage r, st = .draining stage r

theorem State.portsInv_iff {s : State} : s.PortsInv ↔ (∀ t, (s.ports.get t).InRange) ∧ (∀ t, (s.tiles.get t).InRange)
    ∧ (∀ t, (s.frames.get t).level ≤ 256) ∧ (∀ t, (s.cmp.get t).underruns ≤ 65535)
    ∧ ∀ t, ¬ (s.ports.get t).state.SendsFrames → (s.frames.get t).kind = .none := by
  have hsends : ∀ t, ¬ (s.ports.get t).state.SendsFrames
      ↔ (s.ports.get t).state ≠ .up ∧ ∀ stage r, (s.ports.get t).state ≠ .draining stage r := fun t => by
    simp [PortState.SendsFrames, not_or]
  constructor
  · rintro ⟨h1, h2, h3, h4, h5, h6, h7⟩
    exact ⟨fun t => ⟨h1 t, h2 t⟩, fun t => ⟨h3 t, h4 t⟩, h5, h6, fun t ht => h7 t ((hsends t).1 ht).1 ((hsends t).1 ht).2⟩
  · rintro ⟨h1, h2, h3, h4, h5⟩
    exact ⟨fun t => (h1 t).1, fun t => (h1 t).2, fun t => (h2 t).1, fun t => (h2 t).2, h3, h4,
      fun t hup hdrain => h5 t ((hsends t).2 ⟨hup, hdrain⟩)⟩

section
variable {s t : State}

theorem State.PortsInv.congr (h : s.PortsInv) (hports : t.ports = s.ports) (htiles : t.tiles = s.tiles) (hframes : t.frames = s.frames)
    (hcmp : t.cmp = s.cmp) : t.PortsInv := by
  rw [State.portsInv_iff] at h ⊢
  rw [hports, htiles, hframes, hcmp]
  exact h

theorem State.PortsInv.same (h : s.PortsInv) (k : s.SamePicture t) : t.PortsInv := h.congr k.ports k.tiles k.frames k.cmp

/-- Ports that stay in range and begin to send no frames that they were not sent. -/
theorem State.PortsInv.withPorts (h : s.PortsInv) (htiles : t.tiles = s.tiles) (hframes : t.frames = s.frames) (hcmp : t.cmp = s.cmp)
    (hrange : ∀ i, (t.ports.get i).InRange) (hsends : ∀ i, (s.ports.get i).state.SendsFrames → (t.ports.get i).state.SendsFrames) :
    t.PortsInv := by
  obtain ⟨_, h2, h3, h4, h5⟩ := State.portsInv_iff.1 h
  refine State.portsInv_iff.2 ⟨hrange, fun i => ?_, fun i => ?_, fun i => ?_, fun i hi => ?_⟩
  · rw [htiles]; exact h2 i
  · rw [hframes]; exact h3 i
  · rw [hcmp]; exact h4 i
  · rw [hframes]; exact h5 i fun hs => hi (hsends i hs)

end

/-! ### Tiles -/

theorem warmUpStored_inRange (n : Nat) : 50 ≤ warmUpStored n ∧ warmUpStored n ≤ 1000 ∧ warmUpStored n % 10 = 0 := by
  unfold warmUpStored
  split
  · decide
  · split
    · decide
    · omega

/-- Tiles that stay in range. -/
theorem State.PortsInv.withTiles {s : State} (h : s.PortsInv) {tiles : Table TileRec 16} (htiles : ∀ t, (tiles.get t).InRange) :
    State.PortsInv { s with tiles := tiles } := by
  obtain ⟨h1, _, h3, h4, h5⟩ := State.portsInv_iff.1 h
  exact State.portsInv_iff.2 ⟨h1, htiles, h3, h4, h5⟩

theorem State.PortsInv.storeWarmUp {s : State} (h : s.PortsInv) (ts : List TileId) (warmUp : Option Nat) : (s.storeWarmUp ts warmUp).PortsInv := by
  obtain ⟨_, h2, _⟩ := State.portsInv_iff.1 h
  cases warmUp with
  | none => exact h
  | some n =>
    refine h.withTiles fun t => ?_
    rw [Table.get_mapIdx]
    split
    · exact ⟨(h2 t).1, warmUpStored_inRange n⟩
    · exact h2 t

/-! ### Ports -/

/-- A port stays in range where it enters a state other than TRAINING. -/
theorem Port.InRange.enter {p : Port} (h : p.InRange) {q : Port} (hmissed : q.missed ≤ p.missed)
    (hstate : ∀ a n, q.state = .training a n → p.state = .training a n) : q.InRange :=
  ⟨Nat.le_trans hmissed h.1, fun a n hq => h.2 a n (hstate a n hq)⟩

/-- The switch of TILE_POWER keeps a port's ranges and takes no frames from a port that is sent them (R152). -/
theorem Port.switch_inRange {p : Port} (h : p.InRange) (on : Bool) (now milliseconds : Nat) :
    (p.switch on now milliseconds).1.InRange
      ∧ (p.state.SendsFrames → (p.switch on now milliseconds).1.state.SendsFrames) := by
  unfold Port.switch
  split
  case h_2 | h_3 | h_5 | h_7 | h_9 => exact ⟨h, id⟩
  case h_6 | h_8 | h_10 | h_11 => exact ⟨h.enter (Nat.le_refl _) nofun, fun _ => .inr ⟨_, _, rfl⟩⟩
  all_goals
    next hs =>
    refine ⟨h.enter (Nat.le_refl _) nofun, ?_⟩
    rw [hs]
    rintro (hup | ⟨_, _, hd⟩)
    · cases hup
    · cases hd

theorem State.PortsInv.switchPorts {s : State} (h : s.PortsInv) (ts : List TileId) (on : Bool) : (s.switchPorts ts on).PortsInv := by
  obtain ⟨h1, _⟩ := State.portsInv_iff.1 h
  have hstep : ∀ t, (s.switchStep ts on t).1.InRange
      ∧ ((s.ports.get t).state.SendsFrames → (s.switchStep ts on t).1.state.SendsFrames) := fun t => by
    unfold State.switchStep
    split
    · exact Port.switch_inRange (h1 t) on _ _
    · exact ⟨h1 t, id⟩
  have hget : ∀ t, (s.switchPorts ts on).ports.get t = (s.switchStep ts on t).1 := fun t => Table.get_ofFn _ _
  exact h.withPorts rfl rfl rfl (fun t => by rw [hget]; exact (hstep t).1) fun t => by rw [hget]; exact (hstep t).2

/-- A status taken keeps a port's ranges, and leaves it sending frames (R154, R155, R158). -/
theorem Port.afterStatus_inRange {p : Port} (h : p.InRange) (locked : Bool) (temperature : Temperature) :
    (p.afterStatus locked temperature).1.InRange
      ∧ (p.state.SendsFrames → (p.afterStatus locked temperature).1.state.SendsFrames) := by
  simp only [Port.afterStatus]
  split
  · next hs =>
    split
    · exact ⟨⟨Nat.zero_le _, nofun⟩, fun _ => .inl rfl⟩
    · exact ⟨h.enter (Nat.le_refl _) fun _ _ => id, id⟩
  · exact ⟨h.enter (Nat.le_refl _) fun _ _ => id, id⟩
  · exact ⟨h.enter (Nat.le_refl _) fun _ _ => id, id⟩

/-- One port changed within its ranges. -/
theorem State.PortsInv.changePort {s : State} (h : s.PortsInv) {t : TileId} {r : Port × List PortState} (hrange : r.1.InRange)
    (hsends : (s.ports.get t).state.SendsFrames → r.1.state.SendsFrames) : (s.changePort t r).PortsInv := by
  obtain ⟨h1, _⟩ := State.portsInv_iff.1 h
  have hget : ∀ u, (s.changePort t r).ports.get u = if t = u then r.1 else s.ports.get u := fun u => Table.get_set _ _ _ _
  refine h.withPorts rfl rfl rfl (fun u => ?_) fun u hu => ?_
  · rw [hget]
    split
    · exact hrange
    · exact h1 u
  · rw [hget]
    split
    · next htu => subst htu; exact hsends hu
    · exact hu

/-- A boundary keeps a port's ranges; a drain that waits for its BLACK frame goes on (R154 to R156). -/
theorem Port.atBoundary_inRange {p : Port} (h : p.InRange) (now milliseconds : Nat) :
    (p.atBoundary now milliseconds).1.InRange
      ∧ ∀ r, p.state = .draining .beforeBlack r → (p.atBoundary now milliseconds).1.state = .draining .blackSent r := by
  obtain ⟨hmissed, htraining⟩ := h
  simp only [Port.atBoundary]
  split
  · exact ⟨⟨hmissed, fun a n h => htraining a n h⟩, fun r h => by simp_all⟩
  · exact ⟨⟨hmissed, fun a n h => htraining a n h⟩, fun r h => by simp_all⟩
  · exact ⟨⟨hmissed, fun a n h => htraining a n h⟩, fun r h => by simp_all⟩
  · next a n hs =>
    obtain ⟨ha, ha', _⟩ := htraining a n hs
    split
    · refine ⟨⟨hmissed, fun b m hb => ?_⟩, fun r h => by simp_all⟩
      cases hb
      omega
    · unfold attemptFail
      split
      · refine ⟨⟨hmissed, fun b m hb => ?_⟩, fun r h => by simp_all⟩
        cases hb
        omega
      · exact ⟨⟨hmissed, nofun⟩, fun r h => by simp_all⟩
  · next hs =>
    split
    · exact ⟨⟨Nat.zero_le _, fun a n h => htraining a n h⟩, fun r h => by simp_all⟩
    · split
      · next hlt => exact ⟨⟨Nat.le_of_lt hlt, fun a n h => htraining a n h⟩, fun r h => by simp_all⟩
      · exact ⟨⟨Nat.le_refl _, nofun⟩, fun r h => by simp_all⟩
  · refine ⟨⟨hmissed, fun b m hb => ?_⟩, fun r h => by simp_all⟩
    cases hb
    omega
  · next restart hs =>
    refine ⟨⟨hmissed, nofun⟩, fun r h => ?_⟩
    cases hs.symm.trans h
    rfl
  · refine ⟨?_, fun r h => by simp_all⟩
    unfold drainEnd
    simp only
    split <;> exact ⟨hmissed, nofun⟩

theorem effectiveLevel_le {level : Nat} (h : level ≤ 256) (temperature : Temperature) : effectiveLevel level temperature ≤ 256 := by
  cases temperature with
  | hot => exact Nat.le_trans (Nat.min_le_left _ _) h
  | _ => exact h

/-- The frame opened on a port that has taken its boundary has a level in range, and the kind NONE where the port is sent no frames. -/
theorem State.openFrameOf_inRange {s u : State} (h : s.PortsInv) (htiles : u.tiles = s.tiles) {t : TileId}
    (hport : (u.ports.get t) = (s.portStep t).1) :
    (u.openFrameOf s.ports t).level ≤ 256
      ∧ (¬ (u.ports.get t).state.SendsFrames → (u.openFrameOf s.ports t).kind = .none) := by
  obtain ⟨h1, h2, _⟩ := State.portsInv_iff.1 h
  refine ⟨?_, fun hsends => State.decideKind_none (fun r hr => hsends ?_) fun hup => hsends (.inl hup)⟩
  · show effectiveLevel (u.tiles.get t).level _ ≤ 256
    rw [htiles]
    exact effectiveLevel_le (h2 t).1 _
  · rw [hport]
    exact .inr ⟨_, _, (Port.atBoundary_inRange (h1 t) s.now (s.tiles.get t).warmUp).2 r hr⟩

/-- Line requests leave the counts. -/
theorem State.requestLine_underruns (s : State) (t u : TileId) (py : Nat) :
    ((s.requestLine t py).cmp.get u).underruns = (s.cmp.get u).underruns := by
  simp only [State.requestLine]
  split
  · rw [Table.get_modify]
    split <;> rfl
  · rfl

theorem State.PortsInv.requestLine {s : State} (h : s.PortsInv) (t : TileId) (py : Nat) : (s.requestLine t py).PortsInv := by
  obtain ⟨h1, h2, h3, h4, h5⟩ := State.portsInv_iff.1 h
  exact State.portsInv_iff.2 ⟨h1, h2, h3, fun u => by rw [State.requestLine_underruns]; exact h4 u, h5⟩

theorem State.PortsInv.requestFirstLines {s : State} (h : s.PortsInv) : s.requestFirstLines.PortsInv := by
  unfold State.requestFirstLines
  generalize List.finRange 16 = ts
  induction ts generalizing s with
  | nil => exact h
  | cons t ts ih => exact ih (h.requestLine t 0)

theorem State.PortsInv.closeBoundary {s : State} (h : s.PortsInv) : s.closeBoundary.PortsInv := by
  obtain ⟨h1, h2, _, h4, _⟩ := State.portsInv_iff.1 h
  have hport : ∀ t, (s.stepPorts.report (.frameTick s.csu.frame)).ports.get t = (s.portStep t).1 := fun t => Table.get_ofFn _ _
  have hopened : ((s.stepPorts.report (.frameTick s.csu.frame)).openFrames s.ports).PortsInv := by
    refine State.portsInv_iff.2 ⟨fun t => ?_, h2, fun t => ?_, fun t => ?_, fun t ht => ?_⟩
    · rw [State.openFrames_ports, hport]
      exact (Port.atBoundary_inRange (h1 t) _ _).1
    · rw [State.openFrames_frames, Table.get_ofFn]
      exact (State.openFrameOf_inRange h (u := s.stepPorts.report (.frameTick s.csu.frame)) rfl (hport t)).1
    · rw [State.openFrames_cmp, Table.get_mapIdx]
      exact h4 t
    · rw [State.openFrames_frames, Table.get_ofFn]
      exact (State.openFrameOf_inRange h (u := s.stepPorts.report (.frameTick s.csu.frame)) rfl (hport t)).2 ht
  exact (hopened.requestFirstLines).congr rfl rfl rfl rfl

theorem State.PortsInv.portBoundary {s : State} (h : s.PortsInv) (t : TileId) : (s.portBoundary t).PortsInv := by
  obtain ⟨h1, h2, h3, h4, h5⟩ := State.portsInv_iff.1 h
  have hport : (s.changePort t (s.portStep t)).ports.get t = (s.portStep t).1 := Table.get_set_self _ _ _
  obtain ⟨hlevel, hkind⟩ := State.openFrameOf_inRange h (u := s.changePort t (s.portStep t)) rfl hport
  rw [hport] at hkind
  rw [s.portBoundary_eq t]
  refine State.portsInv_iff.2 ⟨fun u => ?_, h2, fun u => ?_, fun u => ?_, fun u hu => ?_⟩
  · rw [Table.get_set]
    split
    · exact (Port.atBoundary_inRange (h1 t) _ _).1
    · exact h1 u
  · rw [Table.get_set]
    split
    · exact hlevel
    · exact h3 u
  · rw [Table.get_modify]
    split <;> exact h4 u
  · rw [Table.get_set] at hu ⊢
    split
    · next htu => rw [if_pos htu] at hu; exact hkind hu
    · next htu => rw [if_neg htu] at hu; exact h5 u hu

/-! ### Lines, bursts and resets -/

/-- A line sent advances one count by at most one step below its limit (R146). -/
theorem State.sendDueLine_underruns {s : State} (h : ∀ u, (s.cmp.get u).underruns ≤ 65535) (t u : TileId) (py : Nat) :
    ((s.sendDueLine t py).cmp.get u).underruns ≤ 65535 := by
  simp only [State.sendDueLine]
  split
  · split
    · show ((s.cmp.modify t _).get u).underruns ≤ 65535
      rw [Table.get_modify]
      split <;> exact h u
    · unfold State.underrun State.sendPicture
      simp only [State.report_cmp, Table.get_modify]
      split
      · exact Nat.min_le_left _ _
      · exact h u
  all_goals exact h u

theorem State.PortsInv.line {s : State} (h : s.PortsInv) (t : TileId) (n : Nat) :
    ((((s.atLeast n).sendDueLine t (s.frames.get t).nextLine).advanceLine t).requestLine t ((s.frames.get t).nextLine + 1)).grant.PortsInv := by
  obtain ⟨h1, h2, h3, h4, h5⟩ := State.portsInv_iff.1 h
  have hsame : ∀ u, ((s.frames.modify t fun f => { f with nextLine := f.nextLine + 1 }).get u).level = (s.frames.get u).level
      ∧ ((s.frames.modify t fun f => { f with nextLine := f.nextLine + 1 }).get u).kind = (s.frames.get u).kind := fun u => by
    rw [Table.get_modify]
    split <;> exact ⟨rfl, rfl⟩
  have hadvanced : (((s.atLeast n).sendDueLine t (s.frames.get t).nextLine).advanceLine t).PortsInv := by
    have hsent := State.sendDueLine_underruns (s := s.atLeast n) h4 t (py := (s.frames.get t).nextLine)
    have hstate : (((s.atLeast n).sendDueLine t (s.frames.get t).nextLine).advanceLine t).PortsInv
        ↔ State.PortsInv { s with frames := s.frames.modify t fun f => { f with nextLine := f.nextLine + 1 }
                                  cmp := ((s.atLeast n).sendDueLine t (s.frames.get t).nextLine).cmp } := by
      rw [State.sendDueLine_eq]
      exact Iff.rfl
    refine hstate.2 (State.portsInv_iff.2 ⟨h1, h2, fun u => ?_, hsent, fun u hu => ?_⟩)
    · rw [(hsame u).1]; exact h3 u
    · rw [(hsame u).2]; exact h5 u hu
  exact (hadvanced.requestLine t _).congr rfl rfl rfl rfl

theorem State.PortsInv.endBurst {s : State} (h : s.PortsInv) (b : Burst) : (s.endBurst b).PortsInv := by
  obtain ⟨h1, h2, h3, h4, h5⟩ := State.portsInv_iff.1 h
  match hk : b.kind with
  | .fetch t false =>
    rw [s.endBurst_fetch hk]
    have hdone : ((s.freed b).fetchBurstDone t).PortsInv := by
      have hcmp : ∀ u, (((s.freed b).fetchBurstDone t).cmp.get u).underruns ≤ 65535 := fun u => by
        unfold State.fetchBurstDone
        split
        · exact h4 u
        · simp only
          split
          · rw [Table.get_modify]
            split <;> exact h4 u
          · exact h4 u
      rw [State.fetchBurstDone_eq]
      exact State.portsInv_iff.2 ⟨h1, h2, h3, hcmp, h5⟩
    exact hdone.congr rfl rfl rfl rfl
  | .fetch t true =>
    rw [s.endBurst_stale hk]
    exact h.congr rfl rfl rfl rfl
  | .load =>
    rw [s.endBurst_load hk]
    have hdone : ((s.freed b).loadBurstDone b).PortsInv := by
      rw [((s.freed b).loadBurstDone_eq b).1]
      exact h.congr rfl rfl rfl rfl
    exact hdone.congr rfl rfl rfl rfl

theorem PortState.kept_sendsFrames {st : PortState} (now milliseconds : Nat) (h : st.SendsFrames) : (st.kept now milliseconds).SendsFrames := by
  rcases h with rfl | ⟨stage, r, rfl⟩
  · exact .inl rfl
  · exact .inr ⟨stage, false, rfl⟩

theorem Port.InRange.kept {p : Port} (h : p.InRange) (now milliseconds : Nat) :
    Port.InRange { p with state := p.state.kept now milliseconds } := by
  refine ⟨h.1, fun a n hs => h.2 a n ?_⟩
  cases hp : p.state with
  | training b m => rw [hp] at hs; exact hs
  | _ => rw [hp] at hs; cases hs

theorem State.PortsInv.keepValues {s : State} (h : s.PortsInv) : s.keepValues.PortsInv := by
  obtain ⟨h1, h2, h3, _, h5⟩ := State.portsInv_iff.1 h
  have hport : ∀ t, s.keepValues.ports.get t
      = { s.ports.get t with state := (s.ports.get t).state.kept s.now (s.tiles.get t).warmUp } := fun t => Table.get_mapIdx _ _ _
  have hframe : ∀ t, s.keepValues.frames.get t = { s.frames.get t with entries := [] } := fun t => Table.get_mapIdx _ _ _
  have hcmp : ∀ t, s.keepValues.cmp.get t = CmpTile.reset := fun t => Table.get_replicate _ _
  refine State.portsInv_iff.2 ⟨fun t => ?_, h2, fun t => ?_, fun t => ?_, fun t ht => ?_⟩
  · rw [hport]; exact (h1 t).kept _ _
  · rw [hframe]; exact h3 t
  · rw [hcmp]; exact Nat.zero_le _
  · rw [hframe]
    exact h5 t fun hs => ht (by rw [hport]; exact PortState.kept_sendsFrames _ _ hs)

theorem State.portsInv_afterFullReset (s : State) (straps : Straps) (pins : Pins) (e : Nat) : (s.afterFullReset straps pins e).PortsInv := by
  have hport : ∀ t, (s.afterFullReset straps pins e).ports.get t = Port.powerOn := fun t => Table.get_replicate _ _
  have htile : ∀ t, (s.afterFullReset straps pins e).tiles.get t = TileRec.powerOn := fun t => Table.get_replicate _ _
  have hframe : ∀ t, (s.afterFullReset straps pins e).frames.get t = FrameRec.powerOn := fun t => Table.get_replicate _ _
  have hcmp : ∀ t, (s.afterFullReset straps pins e).cmp.get t = CmpTile.reset := fun t => Table.get_replicate _ _
  refine State.portsInv_iff.2 ⟨fun t => ?_, fun t => ?_, fun t => ?_, fun t => ?_, fun t _ => ?_⟩
  · rw [hport]; exact ⟨Nat.zero_le _, nofun⟩
  · rw [htile]; unfold TileRec.InRange; decide
  · rw [hframe]; decide
  · rw [hcmp]; exact Nat.zero_le _
  · rw [hframe]; rfl

/-! ### Every outcome -/

theorem State.PortsInv.byCommand {s t : State} {r : Result} (h : s.PortsInv) (k : s.ByCommand t r) : t.PortsInv := by
  cases k with
  | answers _ _ k => exact h.same k.samePicture
  | tiles tiles _ _ k =>
    obtain ⟨_, h2, _⟩ := State.portsInv_iff.1 h
    refine h.withTiles fun t => ?_
    obtain ⟨hwarm, hlevel⟩ := k t
    unfold TileRec.InRange
    rw [hwarm]
    refine ⟨?_, (h2 t).2⟩
    rcases hlevel with hlevel | hlevel
    · exact hlevel
    · rw [hlevel]; exact (h2 t).1
  | power ts on warmUp => exact (h.storeWarmUp ts warmUp).switchPorts ts on
  | resets => exact h.keepValues.congr rfl rfl rfl rfl
  | rewrites i r dropped named => rw [State.rewrite_eq]; exact h.congr rfl rfl rfl rfl
  | starts => exact h.same s.samePicture_beginStart
  | _ => exact h.congr rfl rfl rfl rfl

theorem State.finish_ports (code : Nat) (broadcast : Bool) (r : State × Result) :
    State.finish code broadcast r = { r.1 with clc := (State.finish code broadcast r).clc } := by
  unfold State.finish
  split <;> rfl

theorem State.PortsInv.draws {s t : State} (h : s.PortsInv) (k : s.Draws t) : t.PortsInv := by
  have chained : ∀ {u : State}, s.Chained u → u.PortsInv := fun k =>
    k.keeps h (fun _ _ hsame hu => hu.same hsame) fun _ _ _ hu => hu.congr rfl rfl rfl rfl
  cases k with
  | chained k => exact chained k
  | closes k => exact (chained k).closeBoundary
  | command code broadcast _ hsame k =>
    rw [State.finish_ports]
    exact ((h.same hsame).byCommand k).congr rfl rfl rfl rfl
  | fullReset straps pins e => exact s.portsInv_afterFullReset straps pins e
  | keepReset pins e =>
    exact State.PortsInv.congr (State.PortsInv.keepValues (h.congr (t := { s with pins := pins }) rfl rfl rfl rfl)) rfl rfl rfl rfl
  | running e he hjob =>
    rw [((s.enterPhase .running).returnResult_eq .ok .empty).1]
    exact h.congr rfl rfl rfl rfl
  | line t n => exact h.line t n
  | burst b => exact h.endBurst b
  | window n => exact h.congr rfl rfl rfl rfl
  | warmedUp t n endsAt hs =>
    obtain ⟨h1, _⟩ := State.portsInv_iff.1 h
    refine (State.PortsInv.congr (t := s.atLeast n) h rfl rfl rfl rfl).changePort ⟨(h1 t).1, fun a m ha => ?_⟩ fun hsends => ?_
    · cases ha
      omega
    · rw [State.atLeast_ports, hs] at hsends
      rcases hsends with hup | ⟨_, _, hd⟩
      · cases hup
      · cases hd
  | portBoundary t => exact h.portBoundary t
  | status t locked temperature hot hs =>
    obtain ⟨h1, _⟩ := State.portsInv_iff.1 h
    obtain ⟨hrange, hsends⟩ := Port.afterStatus_inRange (h1 t) locked temperature
    exact (h.changePort hrange hsends).congr rfl rfl rfl rfl

/-- Settles O59: each outcome of a row keeps the ranges; a boundary gives the kind NONE to a port that is sent no frames. -/
theorem portRangesKept : Obligations.PortRangesKept := by
  unfold Obligations.PortRangesKept
  exact stepKeeps_of_draws (fun _ _ k h => h.same k) fun _ _ k h => h.draws k

end Sys2Proof.Machine

/-! SUPPORT. The groups of a part: which one it holds, what each operation makes of their states, the word of a master's boundary, and
that every step keeps them in order: GroupsKept. -/

namespace Sys2Proof.Machine

/-! ### The group held (R65, R77) -/

theorem GroupState.holdsRecords_iff {st : GroupState} : st.holdsRecords = true ↔ st.Locks := by
  cases st <;> simp [GroupState.holdsRecords, GroupState.isNominated, GroupState.isInDoubt, GroupState.Locks]

theorem GroupState.isNominated_iff {st : GroupState} : st.isNominated = true ↔ ∃ f, st = .nominated f := by
  cases st <;> simp [GroupState.isNominated]

theorem GroupState.isInDoubt_iff {st : GroupState} : st.isInDoubt = true ↔ ∃ f, st = .inDoubt f := by
  cases st <;> simp [GroupState.isInDoubt]

/-- At most one group is NOMINATED or IN_DOUBT (R65). -/
def State.OneHeld (s : State) : Prop := ∀ g h, (s.groupState g).Locks → (s.groupState h).Locks → g = h

theorem GroupState.Locks.of_nominated {st : GroupState} {f : Frame} (h : st = .nominated f) : st.Locks := ⟨f, .inl h⟩

theorem GroupState.Locks.of_inDoubt {st : GroupState} {f : Frame} (h : st = .inDoubt f) : st.Locks := ⟨f, .inr h⟩

theorem GroupState.not_locks_idle : ¬ GroupState.idle.Locks := fun ⟨_, h⟩ => h.elim nofun nofun

/-- A search through the groups finds the only one that passes a test, or none where none does. -/
theorem find_group_eq_none {p : GroupId → Bool} : (List.finRange 8).find? p = none ↔ ∀ g, ¬ p g = true := by
  simp [List.find?_eq_none]

theorem find_group_eq {p : GroupId → Bool} {g : GroupId} (hg : p g = true) (honly : ∀ h, p h = true → h = g) :
    (List.finRange 8).find? p = some g := by
  cases hf : (List.finRange 8).find? p with
  | none => exact absurd hg (find_group_eq_none.1 hf g)
  | some h => rw [honly h (List.find?_some hf)]

section
variable {s : State} {g : GroupId} {f : Frame}

theorem State.nominatedGroup_eq_none : s.nominatedGroup = none ↔ ∀ g f, s.groupState g ≠ .nominated f := by
  simp only [State.nominatedGroup, find_group_eq_none, GroupState.isNominated_iff, not_exists, ne_eq]

theorem State.heldGroup_eq_none : s.heldGroup = none ↔ ∀ g, ¬ (s.groupState g).Locks := by
  simp only [State.heldGroup, find_group_eq_none, GroupState.holdsRecords_iff]

theorem State.inDoubtGroup_eq_none : s.inDoubtGroup = none ↔ ∀ g f, s.groupState g ≠ .inDoubt f := by
  simp only [State.inDoubtGroup, find_group_eq_none, GroupState.isInDoubt_iff, not_exists, ne_eq]

theorem State.nominatedGroup_some (h : s.nominatedGroup = some g) : ∃ f, s.groupState g = .nominated f :=
  GroupState.isNominated_iff.1 (List.find?_some (p := fun g => (s.groupState g).isNominated) h)

theorem State.inDoubtGroup_some (h : s.inDoubtGroup = some g) : ∃ f, s.groupState g = .inDoubt f :=
  GroupState.isInDoubt_iff.1 (List.find?_some (p := fun g => (s.groupState g).isInDoubt) h)

theorem State.OneHeld.nominatedGroup_eq (h : s.OneHeld) (hg : s.groupState g = .nominated f) : s.nominatedGroup = some g :=
  find_group_eq (GroupState.isNominated_iff.2 ⟨f, hg⟩) fun k hk => by
    obtain ⟨e, he⟩ := GroupState.isNominated_iff.1 hk
    exact h k g (.of_nominated he) (.of_nominated hg)

theorem State.OneHeld.heldGroup_eq (h : s.OneHeld) (hg : (s.groupState g).Locks) : s.heldGroup = some g :=
  find_group_eq (GroupState.holdsRecords_iff.2 hg) fun k hk => h k g (GroupState.holdsRecords_iff.1 hk) hg

theorem State.OneHeld.inDoubtGroup_eq (h : s.OneHeld) (hg : s.groupState g = .inDoubt f) : s.inDoubtGroup = some g :=
  find_group_eq (GroupState.isInDoubt_iff.2 ⟨f, hg⟩) fun k hk => by
    obtain ⟨e, he⟩ := GroupState.isInDoubt_iff.1 hk
    exact h k g (.of_inDoubt he) (.of_inDoubt hg)

theorem State.groupsInv_iff : s.GroupsInv
    ↔ s.OneHeld ∧ (s.clc.straps.role = .master → s.MasterGroups) ∧ (s.clc.straps.role = .slave → s.SlaveGroups) := by
  unfold State.GroupsInv State.OneHeld
  simp only [GroupState.holdsRecords_iff]

theorem State.MasterGroups.oneHeld (h : s.MasterGroups) : s.OneHeld := by
  obtain ⟨_, hdoubt, _, _, hnom⟩ := h
  rintro a b ⟨e, ha | ha⟩ ⟨k, hb | hb⟩
  · cases ((hnom a e).1 ha).symm.trans ((hnom b k).1 hb)
    rfl
  · exact absurd hb (hdoubt b k)
  · exact absurd ha (hdoubt a e)
  · exact absurd ha (hdoubt a e)

theorem State.groupsInv_of_master (hrole : s.clc.straps.role = .master) (h : s.MasterGroups) : s.GroupsInv :=
  State.groupsInv_iff.2 ⟨h.oneHeld, fun _ => h, fun hs => by rw [hrole] at hs; cases hs⟩

theorem State.groupsInv_of_slave (hrole : s.clc.straps.role = .slave) (hone : s.OneHeld) (h : s.SlaveGroups) : s.GroupsInv :=
  State.groupsInv_iff.2 ⟨hone, fun hm => (by rw [hrole] at hm; cases hm), fun _ => h⟩

end

/-! ### What the invariant reads -/

/-- `t` agrees with `s` in what the groups' invariant reads. -/
structure State.SameGroups (s t : State) : Prop where
  state : ∀ g, t.groupState g = s.groupState g
  due : t.due = s.due
  nomination : t.csu.nomination = s.csu.nomination
  sync : t.csu.sync = s.csu.sync
  role : t.clc.straps.role = s.clc.straps.role

theorem State.sameGroups_of_eq {s t : State} (h : t = { s with
    pending := t.pending, now := t.now, phase := t.phase, startingEnd := t.startingEnd, pins := t.pins, rate := t.rate
    rateNow := t.rateNow, geo := t.geo, held := t.held, tiles := t.tiles, ports := t.ports, frames := t.frames, cmp := t.cmp
    links := t.links, bg := t.bg, bgNow := t.bgNow, sdir := t.sdir, store := t.store, storeEpoch := t.storeEpoch, fsc := t.fsc
    ptab := t.ptab, csu := t.csu, cvb := t.cvb, cbi := t.cbi, evb := t.evb, freeCount := t.freeCount, clc := t.clc })
    (hnom : t.csu.nomination = s.csu.nomination) (hsync : t.csu.sync = s.csu.sync) (hstraps : t.clc.straps = s.clc.straps) :
    s.SameGroups t := by
  refine ⟨fun g => ?_, ?_, hnom, hsync, congrArg Straps.role hstraps⟩
  · rw [h]; rfl
  · rw [h]

theorem State.SameGroups.trans {s t u : State} (h : s.SameGroups t) (k : t.SameGroups u) : s.SameGroups u :=
  ⟨fun g => (k.state g).trans (h.state g), k.due.trans h.due, k.nomination.trans h.nomination, k.sync.trans h.sync, k.role.trans h.role⟩

section
variable {s t : State}

theorem State.MasterGroups.congr (h : s.MasterGroups) (k : s.SameGroups t) : t.MasterGroups := by
  unfold State.MasterGroups at *
  simpa only [k.state, k.due, k.nomination, k.sync] using h

theorem State.GroupsInv.congr (h : s.GroupsInv) (k : s.SameGroups t) : t.GroupsInv := by
  unfold State.GroupsInv State.MasterGroups State.SlaveGroups at *
  simpa only [k.state, k.due, k.nomination, k.sync, k.role] using h

theorem State.Quiet.sameGroups (h : s.Quiet t) : s.SameGroups t := by
  obtain ⟨ht, hstraps, _⟩ := h
  exact State.sameGroups_of_eq (by rw [ht]) (by rw [ht]) (by rw [ht]) hstraps

theorem State.sameGroups_closeBoundary (s : State) : s.SameGroups s.closeBoundary :=
  State.sameGroups_of_eq (by rw [s.closeBoundary_eq]) (by rw [s.closeBoundary_eq]) (by rw [s.closeBoundary_eq])
    (by rw [s.closeBoundary_eq])

theorem State.sameGroups_evaluate (s : State) : s.SameGroups s.evaluate := by
  rcases s.evaluate_cases with ⟨_, h⟩ | ⟨_, h⟩ <;> rw [h] <;> exact State.sameGroups_of_eq rfl rfl rfl rfl

/-- What follows the word at every boundary of a part in lock: the evaluation, the re-test, the flag, the end of the boundary. -/
def State.finishBoundary (flag : Bool) (f : Frame) (s : State) : State :=
  (((s.evaluate).retestRdy).handOver flag f).closeBoundary

theorem State.sameGroups_finishBoundary (s : State) (flag : Bool) (f : Frame) : s.SameGroups (s.finishBoundary flag f) := by
  have h : s.evaluate.SameGroups (((s.evaluate).retestRdy).handOver flag f) := State.sameGroups_of_eq rfl rfl rfl rfl
  exact (s.sameGroups_evaluate.trans h).trans (State.sameGroups_closeBoundary _)

end

/-! ### What operations make of the groups' states -/

section
variable (s : State) (g h : GroupId) (f : Frame)

theorem State.setGroupState_groupState (st : GroupState) : (s.setGroupState g st).groupState h = if g = h then st else s.groupState h := by
  rw [State.groupState, State.setGroupState_groups, Table.get_modify]
  split <;> rfl

theorem State.executeCut_groupState : (s.executeCut g f).groupState h = if g = h then .idle else s.groupState h := by
  rw [State.groupState, State.executeCut_groups, Table.get_modify]
  split <;> rfl

theorem State.executeAbandon_groupState : (s.executeAbandon g).groupState h = if g = h then .idle else s.groupState h := by
  rw [State.groupState, State.executeAbandon_groups, Table.get_modify]
  split <;> rfl

theorem State.nominate_groupState : (s.nominate g f).groupState h = if g = h then .nominated f else s.groupState h := by
  rw [State.groupState, State.nominate_groups, Table.get_modify]
  split <;> rfl

theorem State.releaseDoubt_groupState : (s.releaseDoubt g).groupState h = if g = h then .idle else s.groupState h :=
  s.setGroupState_groupState g h .idle

theorem State.makeAllDue_groupState (gs : List GroupId) :
    (s.makeAllDue gs).groupState h = if h ∈ gs then .due else s.groupState h := by
  rw [State.groupState, State.makeAllDue_get]
  split <;> rfl

theorem State.makeAllDue_due (gs : List GroupId) : (s.makeAllDue gs).due = s.due ++ gs := by rw [s.makeAllDue_eq gs]

end

/-- The chain state but for what acting on a word may change stays (R95 to R99). -/
theorem State.ActsWithin.sync {s t : State} (h : s.ActsWithin t) : t.csu.sync = s.csu.sync ∧ t.csu.nomination = s.csu.nomination
    ∧ t.clc = s.clc ∧ t.due = s.due := by
  obtain ⟨ht, hcsu⟩ := h
  refine ⟨?_, ?_, ?_, ?_⟩
  · rw [hcsu]
  · rw [hcsu]
  · rw [ht]
  · rw [ht]

/-! ### A slave's groups -/

section
variable {s t : State} {g : GroupId}

/-- A group that becomes IDLE leaves a slave's groups in order. -/
theorem State.GroupsInv.idles (h : s.GroupsInv) (hrole : s.clc.straps.role = .slave) (hwithin : s.ActsWithin t)
    (hstate : ∀ k, t.groupState k = if g = k then .idle else s.groupState k) : t.GroupsInv := by
  obtain ⟨hone, _, hslave⟩ := State.groupsInv_iff.1 h
  obtain ⟨hdue, hnom, hwaits, hlocked, hlost⟩ := hslave hrole
  obtain ⟨hsync, hnomination, hclc, hdue'⟩ := hwithin.sync
  have hback : ∀ k st, st ≠ .idle → t.groupState k = st → s.groupState k = st := fun k st hst hk => by
    rw [hstate] at hk
    split at hk
    · exact absurd hk.symm hst
    · exact hk
  refine State.groupsInv_of_slave (by rw [hclc]; exact hrole) ?_ ⟨hdue'.trans hdue, hnomination.trans hnom, fun k => ⟨?_, ?_⟩, fun k e hk => ?_, fun k e hk => ?_⟩
  · rintro a b ⟨e, ha⟩ ⟨k, hb⟩
    refine hone a b ⟨e, ?_⟩ ⟨k, ?_⟩
    · exact ha.imp (hback a _ nofun) (hback a _ nofun)
    · exact hb.imp (hback b _ nofun) (hback b _ nofun)
  · exact fun hk => (hwaits k).1 (hback k _ nofun hk)
  · exact fun hk => (hwaits k).2 (hback k _ nofun hk)
  · rw [hsync]; exact hlocked k e (hback k _ nofun hk)
  · rw [hsync]; exact hlost k e (hback k _ nofun hk)

theorem State.GroupsInv.abandons (h : s.GroupsInv) (hrole : s.clc.straps.role = .slave) (g : GroupId) : (s.executeAbandon g).GroupsInv :=
  h.idles hrole (s.executeAbandon_within g) (s.executeAbandon_groupState g)

theorem State.GroupsInv.cuts (h : s.GroupsInv) (hrole : s.clc.straps.role = .slave) (g : GroupId) (f : Frame) : (s.executeCut g f).GroupsInv :=
  h.idles hrole (s.executeCut_within g f) fun k => s.executeCut_groupState g k f

/-- A slave in lock that holds no group takes a nomination (R97). -/
theorem State.GroupsInv.nominates (h : s.GroupsInv) (hrole : s.clc.straps.role = .slave) (hsync : s.csu.sync = .locked)
    (hnone : ∀ k, ¬ (s.groupState k).Locks) (g : GroupId) (f : Frame) : (s.nominate g f).GroupsInv := by
  obtain ⟨_, _, hslave⟩ := State.groupsInv_iff.1 h
  obtain ⟨hdue, hnom, hwaits, _, _⟩ := hslave hrole
  have hheld : ∀ k, ((s.nominate g f).groupState k).Locks → k = g := fun k hk => by
    rw [State.nominate_groupState] at hk
    split at hk
    · exact Eq.symm ‹g = k›
    · exact absurd hk (hnone k)
  refine State.groupsInv_of_slave (by rw [State.nominate_clc]; exact hrole) (fun a b ha hb => (hheld a ha).trans (hheld b hb).symm)
    ⟨by rw [State.nominate_due]; exact hdue, by rw [State.nominate_csu]; exact hnom, fun k => ?_, fun k e _ => ?_, fun k e hk => ?_⟩
  · rw [State.nominate_groupState]
    split
    · exact ⟨nofun, nofun⟩
    · exact hwaits k
  · rw [State.nominate_csu]; exact hsync
  · rw [State.nominate_groupState] at hk
    split at hk
    · cases hk
    · exact absurd (.of_inDoubt hk) (hnone k)

theorem State.GroupsInv.checkSequence (h : s.GroupsInv) (hrole : s.clc.straps.role = .slave) (w : SyncWord) (f : Frame) :
    (s.checkSequence w f).GroupsInv := by
  unfold State.checkSequence
  split
  · split
    · exact h
    · split
      · exact h
      · exact h.abandons hrole _
  · split
    · exact h.cuts hrole _ _
    · exact h.congr (State.sameGroups_of_eq rfl rfl rfl rfl)

theorem State.GroupsInv.takeNominate (h : s.GroupsInv) (hrole : s.clc.straps.role = .slave) (hsync : s.csu.sync = .locked) (g : GroupId)
    (w : SyncWord) : (s.takeNominate g w).GroupsInv := by
  unfold State.takeNominate
  split
  · next hnone => exact h.nominates hrole hsync (State.heldGroup_eq_none.1 hnone) g w.frame
  · exact h.congr (State.sameGroups_of_eq rfl rfl rfl rfl)

theorem State.GroupsInv.takeAbandon (h : s.GroupsInv) (hrole : s.clc.straps.role = .slave) (g : GroupId) : (s.takeAbandon g).GroupsInv := by
  unfold State.takeAbandon
  split
  · exact h.abandons hrole _
  · split
    · split
      · exact h.abandons hrole _
      · exact h
    · exact h
  · exact h
  · exact h
  · exact h

theorem State.GroupsInv.takeCut (h : s.GroupsInv) (hrole : s.clc.straps.role = .slave) (g : GroupId) (w : SyncWord) :
    (s.takeCut g w).GroupsInv := by
  have htold : ∀ u : State, s.SameGroups u → u.clc = s.clc → ((u.executeCut g w.frame).adoptSequence w).GroupsInv := fun u hu hclc =>
    ((h.congr hu).cuts (by rw [hclc]; exact hrole) g w.frame).congr (State.sameGroups_of_eq rfl rfl rfl rfl)
  simp only [State.takeCut]
  split
  · exact htold s ⟨fun _ => rfl, rfl, rfl, rfl, rfl⟩ rfl
  · exact htold _ (State.sameGroups_of_eq rfl rfl rfl rfl) rfl

theorem State.GroupsInv.actOn (h : s.GroupsInv) (hrole : s.clc.straps.role = .slave) (hsync : s.csu.sync = .locked) (w : SyncWord)
    (f : Frame) : (s.actOn w f).GroupsInv := by
  have hchecked := h.checkSequence hrole w f
  obtain ⟨hsync', _, hclc, _⟩ := (s.checkSequence_within w f).sync
  have hrole' : (s.checkSequence w f).clc.straps.role = .slave := by rw [hclc]; exact hrole
  unfold State.actOn
  split
  · exact hchecked
  · exact hchecked.takeNominate hrole' (hsync'.trans hsync) _ w
  · exact h.takeCut hrole _ w
  · exact hchecked.takeAbandon hrole' _

/-- A slave's part as a word in lock has been taken, before the word is acted on (R95). -/
def State.wordOpened (s : State) (w : SyncWord) : State := ((s.checkFrame w).beginFrame w.frame).restartLossTimer

theorem State.takeWord_eq (s : State) (w : SyncWord) :
    s.takeWord w = ((s.wordOpened w).actOn w s.csu.frame).finishBoundary w.blackout w.frame := rfl

theorem State.wordOpened_eq (s : State) (w : SyncWord) : s.wordOpened w = { s with
    csu := { s.csu with frame := w.frame, boundaryAt := s.now, lossTimer := some s.now }
    bgNow := s.bg, rateNow := s.rate
    evb := if frameAhead w.frame s.csu.frame then s.evb else (s.desync .frameBack w []).evb } := by
  unfold State.wordOpened State.checkFrame
  split <;> rfl

theorem State.GroupsInv.wordOpened (h : s.GroupsInv) (w : SyncWord) : (s.wordOpened w).GroupsInv := by
  rw [s.wordOpened_eq w]
  exact h.congr (State.sameGroups_of_eq rfl rfl rfl rfl)

theorem State.GroupsInv.wordActed (h : s.GroupsInv) (hrole : s.clc.straps.role = .slave) (hsync : s.csu.sync = .locked) (w : SyncWord) :
    ((s.wordOpened w).actOn w s.csu.frame).GroupsInv :=
  (h.wordOpened w).actOn (by rw [s.wordOpened_eq w]; exact hrole) (by rw [s.wordOpened_eq w]; exact hsync) w s.csu.frame

theorem State.GroupsInv.takeWord (h : s.GroupsInv) (hrole : s.clc.straps.role = .slave) (hsync : s.csu.sync = .locked) (w : SyncWord) :
    (s.takeWord w).GroupsInv := by
  rw [s.takeWord_eq w]
  exact (h.wordActed hrole hsync w).congr (State.sameGroups_finishBoundary _ _ _)

/-! ### Loss and relock -/

/-- A slave whose groups are all IDLE. -/
theorem State.groupsInv_of_idle (hidle : ∀ k, s.groupState k = .idle) (hdue : s.due = []) (hnom : s.csu.nomination = none)
    (hsync : s.clc.straps.role = .master → s.csu.sync = .locked) : s.GroupsInv := by
  have hnone : ∀ k, ¬ (s.groupState k).Locks := fun k => by rw [hidle k]; exact GroupState.not_locks_idle
  refine State.groupsInv_iff.2 ⟨fun a _ ha => absurd ha (hnone a), fun hm => ⟨hsync hm, fun k f => ?_, ?_, fun k => ?_, fun k f => ?_⟩,
    fun _ => ⟨hdue, hnom, fun k => ?_, fun k f hk => ?_, fun k f hk => ?_⟩⟩
  · rw [hidle]; exact nofun
  · rw [hdue]; exact List.nodup_nil
  · rw [hdue, hidle]; exact ⟨nofun, nofun⟩
  · rw [hidle, hnom]; exact ⟨nofun, nofun⟩
  · rw [hidle]; exact ⟨nofun, nofun⟩
  · rw [hidle] at hk; cases hk
  · rw [hidle] at hk; cases hk

/-- Every group of a slave is IDLE that is not held. -/
theorem State.GroupsInv.idle_of_slave (h : s.GroupsInv) (hrole : s.clc.straps.role = .slave) {k : GroupId}
    (hk : ¬ (s.groupState k).Locks) : s.groupState k = .idle := by
  obtain ⟨_, _, hslave⟩ := State.groupsInv_iff.1 h
  obtain ⟨_, _, hwaits, _, _⟩ := hslave hrole
  cases hs : s.groupState k with
  | idle => rfl
  | armed => exact absurd hs (hwaits k).1
  | due => exact absurd hs (hwaits k).2
  | nominated f => exact absurd (.of_nominated hs) hk
  | inDoubt f => exact absurd (.of_inDoubt hs) hk

/-- Every other group of a slave that holds one is IDLE. -/
theorem State.GroupsInv.idle_of_held (h : s.GroupsInv) (hrole : s.clc.straps.role = .slave) {g k : GroupId} (hg : (s.groupState g).Locks)
    (hk : g ≠ k) : s.groupState k = .idle :=
  h.idle_of_slave hrole fun hlocks => hk ((State.groupsInv_iff.1 h).1 g k hg hlocks)

/-- The part of a slave as it loses the words, before the group it holds is dealt with (R103). -/
def State.lossOpened (s : State) : State :=
  State.report (.syncLost (s.csu.frame + 3)) { s.beginFrame (s.csu.frame + 3) with csu := (s.beginFrame (s.csu.frame + 3)).csu.lose }

theorem State.loseSync_eq (s : State) : s.loseSync = (s.lossOpened.holdThroughLoss.retestRdy).closeBoundary := rfl

/-- The groups of a slave in lock that loses the words: one held is IN_DOUBT where readiness was given, else IDLE (R103). -/
theorem State.holdThroughLoss_none (h : ∀ k f, s.groupState k ≠ .nominated f) : s.holdThroughLoss = s := by
  unfold State.holdThroughLoss
  rw [State.nominatedGroup_eq_none.2 h]

theorem State.holdThroughLoss_ready {f : Frame} (hone : s.OneHeld) (hg : s.groupState g = .nominated f) (hr : s.csu.readinessGiven = true) :
    s.holdThroughLoss = (s.setGroupState g (.inDoubt f)).report (.inDoubt g f) := by
  unfold State.holdThroughLoss
  rw [hone.nominatedGroup_eq hg]
  simp only [hr, if_true, hg, GroupState.nominateFrame]

theorem State.holdThroughLoss_unready {f : Frame} (hone : s.OneHeld) (hg : s.groupState g = .nominated f) (hr : s.csu.readinessGiven = false) :
    s.holdThroughLoss = s.executeAbandon g := by
  unfold State.holdThroughLoss
  rw [hone.nominatedGroup_eq hg]
  simp only [hr, Bool.false_eq_true, if_false]

theorem State.GroupsInv.loseSync (h : s.GroupsInv) (hrole : s.clc.straps.role = .slave) (hsync : s.csu.sync = .locked) :
    s.loseSync.GroupsInv := by
  obtain ⟨hone, _, hslave⟩ := State.groupsInv_iff.1 h
  obtain ⟨hdue, hnom, _, _, hlost⟩ := hslave hrole
  have hone' : s.lossOpened.OneHeld := hone
  have hnodoubt : ∀ k f, s.groupState k ≠ .inDoubt f := fun k f hk => by
    have := hlost k f hk
    rw [hsync] at this
    cases this
  have hheld : s.lossOpened.holdThroughLoss.GroupsInv := by
    by_cases hg : ∃ g f, s.groupState g = .nominated f
    · obtain ⟨g, f, hg⟩ := hg
      have hothers : ∀ k, g ≠ k → s.groupState k = .idle := fun k hk => h.idle_of_held hrole (.of_nominated hg) hk
      by_cases hr : s.csu.readinessGiven = true
      · rw [State.holdThroughLoss_ready hone' hg hr]
        have hstate : ∀ k, ((s.lossOpened.setGroupState g (.inDoubt f)).report (.inDoubt g f)).groupState k
            = if g = k then .inDoubt f else .idle := fun k => by
          rw [State.groupState, State.report_groups]
          refine (State.setGroupState_groupState s.lossOpened g k (.inDoubt f)).trans ?_
          split
          · rfl
          · exact hothers k ‹_›
        refine State.groupsInv_of_slave hrole (fun a b ha hb => ?_) ⟨hdue, hnom, fun k => ?_, fun k e hk => ?_, fun _ _ _ => rfl⟩
        · rw [hstate] at ha hb
          split at ha
          · split at hb
            · exact Eq.trans (Eq.symm ‹g = a›) ‹g = b›
            · exact absurd hb GroupState.not_locks_idle
          · exact absurd ha GroupState.not_locks_idle
        · rw [hstate]
          split <;> exact ⟨nofun, nofun⟩
        · rw [hstate] at hk
          split at hk <;> cases hk
      · rw [State.holdThroughLoss_unready hone' hg (Bool.eq_false_iff.2 hr)]
        refine State.groupsInv_of_idle (fun k => ?_) hdue (by rw [((s.lossOpened.executeAbandon_within g).sync).2.1]; exact hnom)
          fun hm => by rw [show (s.lossOpened.executeAbandon g).clc = s.clc from rfl, hrole] at hm; cases hm
        rw [State.executeAbandon_groupState]
        split
        · rfl
        · exact hothers k ‹_›
    · have hnone : ∀ k f, s.groupState k ≠ .nominated f := fun k f hk => hg ⟨k, f, hk⟩
      rw [State.holdThroughLoss_none (s := s.lossOpened) hnone]
      refine State.groupsInv_of_idle (fun k => ?_) hdue hnom fun hm => by
        rw [show s.lossOpened.clc = s.clc from rfl, hrole] at hm; cases hm
      refine h.idle_of_slave hrole ?_
      rintro ⟨f, hk | hk⟩
      · exact hnone k f hk
      · exact hnodoubt k f hk
  rw [s.loseSync_eq]
  exact (hheld.congr (t := s.lossOpened.holdThroughLoss.retestRdy) (State.sameGroups_of_eq rfl rfl rfl rfl)).congr
    (State.sameGroups_closeBoundary _)

/-- The part of a slave as it is back in lock, before the comparison (R105). -/
def State.lockOpened (s : State) (w : SyncWord) : State :=
  State.report (.syncRegained w.frame) { s.beginFrame w.frame with csu := (s.beginFrame w.frame).csu.regain s.now }

/-- The same after the comparison of R105. -/
def State.lockCompared (s : State) (w : SyncWord) : State := ((s.lockOpened w).compareAtRelock s.csu.sync w).endComparison

theorem State.relock_eq (s : State) (w : SyncWord) : s.relock w
    = ((((s.lockCompared w).evaluate.actAtRelock w).retestRdy).handOver w.blackout w.frame).closeBoundary := rfl

theorem State.endComparison_groupState (s : State) (k : GroupId) : s.endComparison.groupState k = s.groupState k := by
  rw [State.groupState, State.endComparison_groups]
  rfl

/-- The comparison leaves the group held IN_DOUBT IDLE, and every other as it was (R105). -/
theorem State.compareAtRelock_groupState (was : SyncState) (w : SyncWord) (k : GroupId) :
    (s.compareAtRelock was w).groupState k = s.groupState k
      ∨ (∃ f, s.groupState k = .inDoubt f) ∧ (s.compareAtRelock was w).groupState k = .idle := by
  have hidles : ∀ {t : State} {g : GroupId}, s.inDoubtGroup = some g → (∀ h, t.groupState h = if g = h then .idle else s.groupState h) →
      t.groupState k = s.groupState k ∨ (∃ f, s.groupState k = .inDoubt f) ∧ t.groupState k = .idle := by
    intro t g hg ht
    rw [ht]
    split
    · next hgk => exact .inr ⟨hgk ▸ State.inDoubtGroup_some hg, rfl⟩
    · exact .inl rfl
  unfold State.compareAtRelock
  split
  · unfold State.compareLost
    split
    · split <;> exact .inl rfl
    · next g hg =>
      split
      · exact hidles hg fun h => s.executeAbandon_groupState g h
      · split
        · split
          · exact hidles hg fun h => s.executeCut_groupState g h _
          · exact hidles hg fun h => State.releaseDoubt_groupState (s.desync .relockGap w [g]) g h
        · exact hidles hg fun h => State.releaseDoubt_groupState (s.desync .relockGap w [g]) g h
  · exact .inl rfl
  · exact .inl rfl

/-- A group IN_DOUBT is dealt with by the comparison (R105). -/
theorem State.compareAtRelock_inDoubt (hone : s.OneHeld) {f : Frame} (hg : s.groupState g = .inDoubt f) (w : SyncWord) :
    (s.compareAtRelock .lost w).groupState g = .idle := by
  have hself : (if g = g then GroupState.idle else s.groupState g) = .idle := if_pos rfl
  unfold State.compareAtRelock State.compareLost
  rw [hone.inDoubtGroup_eq hg]
  simp only
  split
  · exact (s.executeAbandon_groupState g g).trans hself
  · split
    · split
      · exact (s.executeCut_groupState g g _).trans hself
      · exact (State.releaseDoubt_groupState (s.desync .relockGap w [g]) g g).trans hself
    · exact (State.releaseDoubt_groupState (s.desync .relockGap w [g]) g g).trans hself

theorem State.adopts_kept (s : State) (w : SyncWord) : (s.adoptSequence w).csu.sync = s.csu.sync
    ∧ (s.adoptSequence w).csu.nomination = s.csu.nomination ∧ (s.adoptSequence w).clc = s.clc ∧ (s.adoptSequence w).due = s.due :=
  ⟨rfl, rfl, rfl, rfl⟩

theorem State.compareAtRelock_kept (was : SyncState) (w : SyncWord) :
    (s.compareAtRelock was w).csu.sync = s.csu.sync ∧ (s.compareAtRelock was w).csu.nomination = s.csu.nomination
      ∧ (s.compareAtRelock was w).clc = s.clc ∧ (s.compareAtRelock was w).due = s.due := by
  unfold State.compareAtRelock
  split
  · unfold State.compareLost
    split
    · split
      · exact ⟨rfl, rfl, rfl, rfl⟩
      · exact (s.desync .relockGap w []).adopts_kept w
    · next g _ =>
      split
      · exact (s.executeAbandon_within _).sync
      · split
        · split
          · exact (s.executeCut_within _ _).sync
          · exact ((s.desync .relockGap w [g]).releaseDoubt g).adopts_kept w
        · exact ((s.desync .relockGap w [g]).releaseDoubt g).adopts_kept w
  · exact s.adopts_kept w
  · exact ⟨rfl, rfl, rfl, rfl⟩

/-- After the comparison no group is held, and every group of the slave is IDLE (R105). -/
theorem State.GroupsInv.lockCompared_idle (h : s.GroupsInv) (hrole : s.clc.straps.role = .slave) (hsync : s.csu.sync ≠ .locked) (w : SyncWord)
    (k : GroupId) : (s.lockCompared w).groupState k = .idle := by
  obtain ⟨hone, _, hslave⟩ := State.groupsInv_iff.1 h
  obtain ⟨_, _, hwaits, hlocked, hlost⟩ := hslave hrole
  have hone' : (s.lockOpened w).OneHeld := hone
  have hstate : (s.lockOpened w).groupState k = s.groupState k := rfl
  rw [State.lockCompared, State.endComparison_groupState]
  cases hk : s.groupState k with
  | armed => exact absurd hk (hwaits k).1
  | due => exact absurd hk (hwaits k).2
  | nominated f => exact absurd (hlocked k f hk) hsync
  | inDoubt f =>
    rw [hlost k f hk]
    exact State.compareAtRelock_inDoubt hone' (hstate.trans hk) w
  | idle =>
    rcases State.compareAtRelock_groupState (s := s.lockOpened w) s.csu.sync w k with hc | ⟨_, hc⟩
    · exact hc.trans (hstate.trans hk)
    · exact hc

theorem State.lockCompared_kept (s : State) (w : SyncWord) : (s.lockCompared w).csu.sync = .locked
    ∧ (s.lockCompared w).csu.nomination = s.csu.nomination ∧ (s.lockCompared w).clc = s.clc ∧ (s.lockCompared w).due = s.due := by
  obtain ⟨hsync, hnom, hclc, hdue⟩ := State.compareAtRelock_kept (s := s.lockOpened w) s.csu.sync w
  obtain ⟨hsync', hnom', hclc', hdue'⟩ := (State.settleHold_within { (s.lockOpened w).compareAtRelock s.csu.sync w with
    csu := { ((s.lockOpened w).compareAtRelock s.csu.sync w).csu with readinessGiven := false } }).sync
  exact ⟨hsync'.trans hsync, hnom'.trans hnom, hclc'.trans hclc, hdue'.trans hdue⟩

theorem State.GroupsInv.lockCompared (h : s.GroupsInv) (hrole : s.clc.straps.role = .slave) (hsync : s.csu.sync ≠ .locked) (w : SyncWord) :
    (s.lockCompared w).GroupsInv := by
  obtain ⟨_, hnom, hclc, hdue⟩ := s.lockCompared_kept w
  obtain ⟨_, _, hslave⟩ := State.groupsInv_iff.1 h
  obtain ⟨hdue0, hnom0, _⟩ := hslave hrole
  exact State.groupsInv_of_idle (h.lockCompared_idle hrole hsync w) (hdue.trans hdue0) (hnom.trans hnom0) fun hm => by
    rw [hclc, hrole] at hm; cases hm

theorem State.GroupsInv.relock (h : s.GroupsInv) (hrole : s.clc.straps.role = .slave) (hsync : s.csu.sync ≠ .locked) (w : SyncWord) :
    (s.relock w).GroupsInv := by
  obtain ⟨hlocked, _, hclc, _⟩ := s.lockCompared_kept w
  have hevaluated := (h.lockCompared hrole hsync w).congr (State.sameGroups_evaluate _)
  have hrole' : (s.lockCompared w).evaluate.clc.straps.role = .slave := by
    rw [(State.sameGroups_evaluate (s.lockCompared w)).role, hclc]
    exact hrole
  have hsync' : (s.lockCompared w).evaluate.csu.sync = .locked := by
    rw [(State.sameGroups_evaluate (s.lockCompared w)).sync]
    exact hlocked
  have hacted : ((s.lockCompared w).evaluate.actAtRelock w).GroupsInv := by
    unfold State.actAtRelock
    split
    · exact hevaluated
    · exact hevaluated.takeNominate hrole' hsync' _ w
    · exact hevaluated
    · exact hevaluated.takeAbandon hrole' _
  rw [s.relock_eq w]
  exact (hacted.congr (t := (((s.lockCompared w).evaluate.actAtRelock w).retestRdy).handOver w.blackout w.frame)
    (State.sameGroups_of_eq rfl rfl rfl rfl)).congr (State.sameGroups_closeBoundary _)

end

end Sys2Proof.Machine

/-! SUPPORT. The boundary of a master: its word, what the word makes of the part, and the groups that wait for a nomination. -/

namespace Sys2Proof.Machine

section
variable {s t : State} {g : GroupId}

/-! ### Groups that wait (R71 to R75) -/

/-- Groups of a master that are neither DUE nor NOMINATED become DUE in the order given (R73). -/
theorem State.MasterGroups.makesDue (h : s.MasterGroups) {gs : List GroupId} (hnodup : gs.Nodup)
    (hwait : ∀ k ∈ gs, s.groupState k = .idle ∨ s.groupState k = .armed) : (s.makeAllDue gs).MasterGroups := by
  obtain ⟨hsync, hdoubt, hdue, hmem, hnom⟩ := h
  have hcsu : (s.makeAllDue gs).csu = s.csu := by rw [s.makeAllDue_eq gs]
  refine ⟨by rw [hcsu]; exact hsync, fun k f => ?_, ?_, fun k => ?_, fun k f => ?_⟩
  · rw [State.makeAllDue_groupState]
    split
    · exact nofun
    · exact hdoubt k f
  · rw [State.makeAllDue_due]
    refine List.nodup_append'.2 ⟨hdue, hnodup, fun k hk hk' => ?_⟩
    have := (hmem k).1 hk
    rcases hwait k hk' with hw | hw <;> rw [hw] at this <;> cases this
  · rw [State.makeAllDue_due, State.makeAllDue_groupState, List.mem_append]
    split
    · next hk => exact ⟨fun _ => rfl, fun _ => .inr hk⟩
    · next hk => exact ⟨fun hm => (hmem k).1 (hm.resolve_right hk), fun hm => .inl ((hmem k).2 hm)⟩
  · rw [State.makeAllDue_groupState, hcsu]
    split
    · next hk =>
      refine ⟨nofun, fun hm => ?_⟩
      have := (hnom k f).2 hm
      rcases hwait k hk with hw | hw <;> rw [hw] at this <;> cases this
    · exact hnom k f

/-- A group of a master that is not NOMINATED stands IDLE or ARMED from now on, and leaves the queue where it was in it (R70, R75). -/
theorem State.MasterGroups.sets (h : s.MasterGroups) {st : GroupState} (hst : st = .idle ∨ st = .armed)
    (hnow : ∀ f, s.groupState g ≠ .nominated f) {due : List GroupId} (hdue : due = s.due.filter fun k => k ≠ g) :
    { s.setGroupState g st with due := due }.MasterGroups := by
  obtain ⟨hsync, hdoubt, hnodup, hmem, hnom⟩ := h
  have hstate : ∀ k, ({ s.setGroupState g st with due := due } : State).groupState k = if g = k then st else s.groupState k :=
    fun k => s.setGroupState_groupState g k st
  have hne : ∀ {x : GroupState}, st = x → x = .idle ∨ x = .armed := fun hx => hx ▸ hst
  refine ⟨hsync, fun k f => ?_, ?_, fun k => ?_, fun k f => ?_⟩
  · rw [hstate]
    split
    · exact fun hk => (hne hk).elim nofun nofun
    · exact hdoubt k f
  · exact hdue ▸ hnodup.filter _
  · rw [hstate]
    show k ∈ due ↔ _
    rw [hdue, List.mem_filter, hmem k]
    split
    · next hk => exact ⟨fun hm => absurd hk.symm (of_decide_eq_true hm.2), fun hk => ((hne hk).elim nofun nofun : False).elim⟩
    · next hk => exact ⟨And.left, fun hm => ⟨hm, decide_eq_true fun he => hk he.symm⟩⟩
  · rw [hstate]
    split
    · next hk =>
      refine ⟨fun hk => ((hne hk).elim nofun nofun : False).elim, fun hm => ?_⟩
      exact absurd ((hnom k f).2 hm) (hk ▸ hnow f)
    · exact hnom k f

/-- The ARMED groups that a filter picks are distinct and wait. -/
theorem armed_of_filter {s : State} {p : GroupId → Bool} (hp : ∀ k, p k = true → s.groupState k = .armed) :
    ((List.finRange 8).filter p).Nodup ∧ ∀ k ∈ (List.finRange 8).filter p, s.groupState k = .idle ∨ s.groupState k = .armed :=
  ⟨(List.nodup_finRange 8).filter _, fun k hk => .inr (hp k (List.mem_filter.1 hk).2)⟩

theorem State.frameTriggered_armed (s : State) (f : Frame) (k : GroupId)
    (hk : ((s.groups.get k).state = .armed && (s.groups.get k).trigger = .frame f : Bool) = true) : s.groupState k = .armed := by
  simp only [Bool.and_eq_true, decide_eq_true_eq] at hk
  exact hk.1

theorem State.MasterGroups.fires (h : s.MasterGroups) (f : Frame) : (s.fireFrameTriggers f).MasterGroups := by
  obtain ⟨hnodup, hwait⟩ := armed_of_filter (s := s) (s.frameTriggered_armed f)
  exact h.makesDue hnodup hwait

theorem GroupRec.watches_armed {r : GroupRec} {cue : CueId} {d : Direction} (h : r.watches cue d = true) : r.state = .armed := by
  unfold GroupRec.watches at h
  split at h
  · assumption
  · cases h

/-! ### The word of a master (R92, R93) -/

/-- The word of a master's coming boundary. -/
def State.masterWord (line : Bool) (s : State) : SyncWord := s.formWord (s.csu.frame + 1) (s.decision (s.csu.frame + 1) line)

/-- The part of a master at its boundary with the word sent, before the word is acted on. -/
def State.masterSent (line : Bool) (s : State) : State :=
  (((s.atLeast s.nextBoundary).beginFrame (s.csu.frame + 1)).afterDecision (s.csu.frame + 1) (s.masterWord line).kind).sendWord
    (s.masterWord line)

/-- The same after the word: a nomination, a cut, an abandon, or nothing. -/
def State.masterActed (line : Bool) (s : State) : State :=
  match s.decision (s.csu.frame + 1) line with
  | .plain => s.masterSent line
  | .nominate g => (s.masterSent line).nominate g (s.csu.frame + 1)
  | .cut g => (s.masterSent line).executeCut g (s.csu.frame + 1)
  | .abandon g => (s.masterSent line).executeAbandon g

theorem State.masterWord_kind (s : State) (line : Bool) : (s.masterWord line).kind = s.decision (s.csu.frame + 1) line := rfl

/-- The decision of R93 by its cases: a nomination held is cut, abandoned or kept; without one the head of the queue is nominated. -/
theorem State.decision_cases (s : State) (line : Bool) :
    (s.decision (s.csu.frame + 1) line = .plain)
      ∨ (∃ g rest, s.csu.nomination = none ∧ s.due = g :: rest ∧ s.decision (s.csu.frame + 1) line = .nominate g)
      ∨ (∃ g since, s.csu.nomination = some (g, since) ∧ s.decision (s.csu.frame + 1) line = .cut g)
      ∨ (∃ g since, s.csu.nomination = some (g, since) ∧ s.decision (s.csu.frame + 1) line = .abandon g) := by
  unfold State.decision
  cases hn : s.csu.nomination with
  | none =>
    dsimp only
    split
    · cases hd : s.due with
      | nil => exact .inl rfl
      | cons g rest => exact .inr (.inl ⟨g, rest, rfl, rfl, rfl⟩)
    · exact .inl rfl
  | some p =>
    obtain ⟨g, since⟩ := p
    dsimp only
    split_ifs
    · exact .inr (.inr (.inl ⟨g, since, rfl, rfl⟩))
    · exact .inr (.inr (.inr ⟨g, since, rfl, rfl⟩))
    · exact .inl rfl
    · exact .inr (.inr (.inr ⟨g, since, rfl, rfl⟩))

/-- A master's word is always in step with itself (R96). -/
theorem State.checkSequence_masterSent (s : State) (line : Bool) (h : ∀ g, s.decision (s.csu.frame + 1) line ≠ .cut g) :
    (s.masterSent line).checkSequence (s.masterWord line) s.csu.frame = s.masterSent line := by
  have hseq : (s.masterWord line).cutSequence = (s.masterSent line).csu.cutSequence := by
    show (s.formWord _ _).cutSequence = s.csu.cutSequence
    unfold State.formWord
    cases hd : s.decision (s.csu.frame + 1) line with
    | cut g => exact absurd hd (h g)
    | plain => rfl
    | nominate g => rfl
    | abandon g => rfl
  have hframe : (s.masterWord line).frame = s.csu.frame + 1 := rfl
  unfold State.checkSequence
  rw [if_pos hseq]
  split
  · rfl
  · rw [if_pos hframe]

theorem State.executeCut_sequence (s : State) (g : GroupId) (f : Frame) : (s.executeCut g f).csu.cutSequence = s.csu.cutSequence + 1 := by
  unfold State.executeCut State.settleHold
  split <;> rfl

theorem State.executeCut_lastCut (s : State) (g : GroupId) (f : Frame) : (s.executeCut g f).csu.lastCut = some (g, f) := by
  unfold State.executeCut State.settleHold
  split <;> rfl

theorem State.adoptSequence_of_eq {s : State} {w : SyncWord} (hseq : w.cutSequence = s.csu.cutSequence) (hlast : w.lastCut = s.csu.lastCut) :
    s.adoptSequence w = s := by
  unfold State.adoptSequence
  rw [hseq, hlast]

/-- What a master's own word makes of the part (R95 to R99). -/
theorem State.MasterGroups.actOn_masterWord (h : s.MasterGroups) (line : Bool) :
    (s.masterSent line).actOn (s.masterWord line) s.csu.frame = s.masterActed line := by
  obtain ⟨_, hdoubt, _, _, hnom⟩ := h
  unfold State.actOn State.masterActed
  rw [s.masterWord_kind]
  rcases s.decision_cases line with hd | ⟨g, rest, hn, _, hd⟩ | ⟨g, since, _, hd⟩ | ⟨g, since, hn, hd⟩
  · rw [hd]
    exact s.checkSequence_masterSent line (by rw [hd]; exact nofun)
  · rw [hd]
    simp only
    rw [s.checkSequence_masterSent line (by rw [hd]; exact nofun)]
    unfold State.takeNominate
    rw [State.heldGroup_eq_none.2]
    · rfl
    · rintro k ⟨f, hk | hk⟩
      · have := (hnom k f).1 hk
        rw [hn] at this
        cases this
      · exact hdoubt k f hk
  · rw [hd]
    have hseq : (s.masterWord line).cutSequence = (s.masterSent line).csu.cutSequence + 1 := by
      show (s.formWord _ _).cutSequence = s.csu.cutSequence + 1
      rw [hd]
      rfl
    have hlast : (s.masterWord line).lastCut = some (g, s.csu.frame + 1) := by
      show (s.formWord _ _).lastCut = _
      rw [hd]
      rfl
    simp only [State.takeCut, if_pos hseq]
    show State.adoptSequence _ ((s.masterSent line).executeCut g (s.csu.frame + 1)) = _
    exact State.adoptSequence_of_eq (hseq.trans (State.executeCut_sequence _ _ _).symm) (hlast.trans (State.executeCut_lastCut _ _ _).symm)
  · rw [hd]
    simp only
    rw [s.checkSequence_masterSent line (by rw [hd]; exact nofun)]
    have hg : (s.masterSent line).groupState g = .nominated since := (hnom g since).2 hn
    unfold State.takeAbandon
    rw [hg]

/-- A master's boundary, taken apart. -/
theorem State.MasterGroups.masterBoundary_eq (h : s.MasterGroups) (line : Bool) : s.masterBoundary line
    = ((s.masterActed line).fireFrameTriggers (s.csu.frame + 1)).finishBoundary s.cbi.state (s.csu.frame + 1) := by
  rw [← h.actOn_masterWord line]
  rfl

/-- A master's nomination ends: its group is IDLE, and no other was NOMINATED (R83, R85, R90). -/
theorem State.MasterGroups.endsNomination (h : s.MasterGroups) {f : Frame} (hn : s.csu.nomination = some (g, f))
    (hsync : t.csu.sync = s.csu.sync) (hnom' : t.csu.nomination = none) (hdue : t.due = s.due)
    (hstate : ∀ k, t.groupState k = if g = k then .idle else s.groupState k) : t.MasterGroups := by
  obtain ⟨hlocked, hdoubt, hnodup, hmem, hnom⟩ := h
  refine ⟨hsync.trans hlocked, fun k e => ?_, hdue ▸ hnodup, fun k => ?_, fun k e => ?_⟩
  · rw [hstate]
    split
    · exact nofun
    · exact hdoubt k e
  · rw [hstate, hdue, hmem k]
    split
    · next hk =>
      have hg := (hnom g f).2 hn
      rw [← hk, hg]
      exact ⟨nofun, nofun⟩
    · exact Iff.rfl
  · rw [hstate, hnom']
    split
    · exact ⟨nofun, nofun⟩
    · next hk =>
      refine ⟨fun hg => ?_, nofun⟩
      cases hn.symm.trans ((hnom k e).1 hg)
      exact absurd rfl hk

theorem State.MasterGroups.masterActed (h : s.MasterGroups) (line : Bool) : (s.masterActed line).MasterGroups := by
  have hcases := s.decision_cases line
  have hdue : (s.masterSent line).due = match s.decision (s.csu.frame + 1) line with | .nominate _ => s.due.tail | _ => s.due := rfl
  have hnom' : (s.masterSent line).csu.nomination = match s.decision (s.csu.frame + 1) line with
    | .plain => s.csu.nomination | .nominate g => some (g, s.csu.frame + 1) | .cut _ => none | .abandon _ => none := rfl
  unfold State.masterActed
  rcases hcases with hd | ⟨g, rest, hn, hq, hd⟩ | ⟨g, since, hn, hd⟩ | ⟨g, since, hn, hd⟩ <;> rw [hd] at hdue hnom' ⊢
  · exact h.congr ⟨fun _ => rfl, hdue, hnom', rfl, rfl⟩
  · obtain ⟨hsync, hdoubt, hnodup, hmem, hnom⟩ := h
    rw [hq] at hnodup
    obtain ⟨hnotin, hrest⟩ := List.nodup_cons.1 hnodup
    have hdue' : ((s.masterSent line).nominate g (s.csu.frame + 1)).due = rest := by
      rw [State.nominate_due, hdue, hq]
      rfl
    have hother : ∀ k f, s.groupState k ≠ .nominated f := fun k f hk => by
      have := (hnom k f).1 hk
      rw [hn] at this
      cases this
    refine ⟨hsync, fun k f => ?_, hdue' ▸ hrest, fun k => ?_, fun k f => ?_⟩
    · rw [State.nominate_groupState]
      split
      · exact nofun
      · exact hdoubt k f
    · rw [State.nominate_groupState, hdue']
      split
      · next hk => exact ⟨fun hm => absurd (hk ▸ hm) hnotin, nofun⟩
      · next hk =>
        have hmem' := hmem k
        rw [hq, List.mem_cons] at hmem'
        exact ⟨fun hm => hmem'.1 (.inr hm), fun hm => (hmem'.2 hm).resolve_left fun he => hk he.symm⟩
    · rw [State.nominate_groupState, State.nominate_csu]
      show _ ↔ (s.masterSent line).csu.nomination = _
      rw [hnom']
      split
      · next hk =>
        subst hk
        exact ⟨fun he => by cases he; rfl, fun he => by cases he; rfl⟩
      · next hk => exact ⟨fun he => absurd he (hother k f), fun he => by cases he; exact absurd rfl hk⟩
  · obtain ⟨hsync, hn', _, hdue'⟩ := ((s.masterSent line).executeCut_within g (s.csu.frame + 1)).sync
    exact h.endsNomination hn hsync (hn'.trans hnom') (hdue'.trans hdue) fun k => State.executeCut_groupState _ g k _
  · obtain ⟨hsync, hn', _, hdue'⟩ := ((s.masterSent line).executeAbandon_within g).sync
    exact h.endsNomination hn hsync (hn'.trans hnom') (hdue'.trans hdue) fun k => State.executeAbandon_groupState _ g k

theorem State.MasterGroups.masterBoundary (h : s.MasterGroups) (line : Bool) : (s.masterBoundary line).MasterGroups := by
  rw [h.masterBoundary_eq line]
  exact ((h.masterActed line).fires _).congr (State.sameGroups_finishBoundary _ _ _)

end

end Sys2Proof.Machine

/-! SUPPORT. What a row makes of the part's agreement with the chain: the groups, the records, the coverage lists and RDY. -/

namespace Sys2Proof.Machine

/-! ### What the invariants of the agreement read -/

/-- `t` agrees with `s` in the phase, the groups, the records and surfaces, the coverage lists and RDY. -/
structure State.SameChain (s t : State) : Prop where
  phase : t.phase = s.phase
  held : t.held = s.held
  sdir : t.sdir = s.sdir
  ptab : t.ptab = s.ptab
  state : ∀ g, t.groupState g = s.groupState g
  due : t.due = s.due
  cvb : t.cvb = s.cvb
  sync : t.csu.sync = s.csu.sync
  nomination : t.csu.nomination = s.csu.nomination
  given : t.csu.readinessGiven = s.csu.readinessGiven
  hold : t.csu.desyncHold = s.csu.desyncHold
  released : t.csu.rdyReleased = s.csu.rdyReleased
  role : t.clc.straps.role = s.clc.straps.role

theorem State.SameChain.refl (s : State) : s.SameChain s := ⟨rfl, rfl, rfl, rfl, fun _ => rfl, rfl, rfl, rfl, rfl, rfl, rfl, rfl, rfl⟩

theorem State.SameChain.trans {s t u : State} (h : s.SameChain t) (k : t.SameChain u) : s.SameChain u :=
  ⟨k.phase.trans h.phase, k.held.trans h.held, k.sdir.trans h.sdir, k.ptab.trans h.ptab, fun g => (k.state g).trans (h.state g),
    k.due.trans h.due, k.cvb.trans h.cvb, k.sync.trans h.sync, k.nomination.trans h.nomination, k.given.trans h.given,
    k.hold.trans h.hold, k.released.trans h.released, k.role.trans h.role⟩

theorem State.SameChain.sameGroups {s t : State} (h : s.SameChain t) : s.SameGroups t :=
  ⟨h.state, h.due, h.nomination, h.sync, h.role⟩

/-- Changes beside the agreement. -/
theorem State.sameChain_of_eq {s t : State} (h : t = { s with
    pending := t.pending, now := t.now, startingEnd := t.startingEnd, pins := t.pins, clc := t.clc, rate := t.rate
    rateNow := t.rateNow, geo := t.geo, tiles := t.tiles, ports := t.ports, frames := t.frames, cmp := t.cmp, links := t.links
    bg := t.bg, bgNow := t.bgNow, store := t.store, storeEpoch := t.storeEpoch, fsc := t.fsc, csu := t.csu, cbi := t.cbi
    evb := t.evb, freeCount := t.freeCount })
    (hcsu : t.csu = { s.csu with
      frame := t.csu.frame, cutSequence := t.csu.cutSequence, lastCut := t.csu.lastCut, lockRun := t.csu.lockRun
      lastCounted := t.csu.lastCounted, lossTimer := t.csu.lossTimer, blackoutFlag := t.csu.blackoutFlag
      timing := t.csu.timing, boundaryAt := t.csu.boundaryAt, fsync := t.csu.fsync })
    (hstraps : t.clc.straps = s.clc.straps) : s.SameChain t := by
  constructor
  case role => exact congrArg Straps.role hstraps
  case sync => rw [hcsu]
  case nomination => rw [hcsu]
  case given => rw [hcsu]
  case hold => rw [hcsu]
  case released => rw [hcsu]
  case state => rw [h]; exact fun _ => rfl
  all_goals rw [h]

section
variable {s t : State}

theorem State.Quiet.sameChain (h : s.Quiet t) : s.SameChain t := by
  obtain ⟨ht, hstraps, _⟩ := h
  have hcsu : t.csu = s.csu := by rw [ht]
  refine State.sameChain_of_eq ?_ ?_ hstraps
  · rw [ht]
  · rw [hcsu]

theorem State.sameChain_closeBoundary (s : State) : s.SameChain s.closeBoundary := by
  have hcsu : s.closeBoundary.csu = s.csu := by rw [s.closeBoundary_eq]
  refine State.sameChain_of_eq ?_ (by rw [hcsu]) (by rw [s.closeBoundary_eq])
  rw [s.closeBoundary_eq]

theorem State.sameChain_finish (code : Nat) (broadcast : Bool) (r : State × Result) :
    r.1.SameChain (State.finish code broadcast r) := by
  unfold State.finish
  split <;> exact State.sameChain_of_eq rfl rfl rfl

theorem State.sameChain_returnResult (s : State) (status : Status) (payload : Payload) : s.SameChain (s.returnResult status payload) := by
  obtain ⟨heq, hstraps, _⟩ := s.returnResult_eq status payload
  have hcsu : (s.returnResult status payload).csu = s.csu := by rw [heq]
  refine State.sameChain_of_eq ?_ (by rw [hcsu]) hstraps
  rw [heq]

/-- A part right after a reset: no group waits or is held, no record is in use, no surface is named, RDY is held. -/
structure State.Cleared (t : State) : Prop where
  idle : ∀ g, t.groupState g = .idle
  due : t.due = []
  nomination : t.csu.nomination = none
  sync : t.clc.straps.role = .master → t.csu.sync = .locked
  released : t.csu.rdyReleased = false
  cvb : t.cvb = Cvb.reset
  free : ∀ i, t.ptab.get i = .free

theorem State.Cleared.groupsInv (h : t.Cleared) : t.GroupsInv := State.groupsInv_of_idle h.idle h.due h.nomination h.sync

theorem State.Cleared.of_same {s t : State} (h : s.Cleared) (k : s.SameChain t) : t.Cleared :=
  ⟨fun g => (k.state g).trans (h.idle g), k.due.trans h.due, k.nomination.trans h.nomination,
    fun hm => k.sync.trans (h.sync (k.role.symm.trans hm)), k.released.trans h.released, k.cvb.trans h.cvb,
    fun i => (congrArg (Table.get · i) k.ptab).trans (h.free i)⟩

theorem State.cleared_keepValues (s : State) : s.keepValues.Cleared where
  idle := fun g => by
    show ((s.groups.mapIdx fun _ (r : GroupRec) => { r with state := .idle }).get g).state = .idle
    rw [Table.get_mapIdx]
  due := rfl
  nomination := rfl
  sync := fun hm => by
    show (s.csu.kept s.clc.straps.role).sync = .locked
    have hm' : s.clc.straps.role = .master := hm
    rw [hm']
    rfl
  released := rfl
  cvb := rfl
  free := fun i => Table.get_replicate _ i

theorem State.cleared_afterFullReset (s : State) (straps : Straps) (pins : Pins) (startingEnd : Nat) :
    (s.afterFullReset straps pins startingEnd).Cleared where
  idle := fun g => by
    show (Table.get (Table.replicate 8 GroupRec.powerOn) g).state = .idle
    rw [Table.get_replicate]
    rfl
  due := rfl
  nomination := rfl
  sync := fun hm => by
    show (Csu.powerOn straps.role).sync = .locked
    have hm' : straps.role = .master := hm
    rw [hm']
    rfl
  released := rfl
  cvb := rfl
  free := fun i => Table.get_replicate _ i

end

/-! ### What a row leaves, as the agreement sees it -/

/-- What a row makes of the agreement with the chain. -/
inductive State.Turns (s : State) : State → Prop where
  | same {t : State} (h : s.SameChain t) : s.Turns t
  | cleared {t : State} (h : t.Cleared) : s.Turns t
  | retests {u t : State} (p : Phase) (h : s.SameChain u) (k : (u.enterPhase p).SameChain t) : s.Turns t
  | starts {u t : State} (h : s.SameChain u) (k : u.beginStart.SameChain t) : s.Turns t
  | surface {u t : State} (i : SurfaceId) (st : SurfaceState) (h : s.SameChain u)
      (hunnamed : u.surface i = .empty ∨ (u.sdir.get i).refs = 0) (k : (u.setSurface i st).SameChain t) : s.Turns t
  | loads {u t : State} (i : SurfaceId) (taken : Nat) (h : s.SameChain u)
      (k : (u.setSurface i ((u.surface i).loadedMore taken)).SameChain t
        ∨ (u.setSurface i ((u.surface i).loadedMore taken)).retestRdy.SameChain t) : s.Turns t
  | rewrites {u t : State} (i : PlacementId) (r : Placement) (dropped named : List SurfaceId) (h : s.SameChain u)
      (hr : u.Rewrites i r dropped named) (k : (u.rewrite i r dropped named).SameChain t) : s.Turns t
  | dues {u t : State} (gs : List GroupId) (h : s.SameChain u) (hrole : u.clc.straps.role = .master) (hnodup : gs.Nodup)
      (hwait : ∀ g ∈ gs, u.groupState g = .idle ∨ u.groupState g = .armed) (k : (u.makeAllDue gs).SameChain t) : s.Turns t
  | arms {u t : State} (g : GroupId) (h : s.SameChain u) (hrole : u.clc.straps.role = .master) (hidle : u.groupState g = .idle)
      (k : (u.setGroupState g .armed).SameChain t) : s.Turns t
  | withdraws {u t : State} (g : GroupId) (h : s.SameChain u) (hrole : u.clc.straps.role = .master)
      (hwait : u.groupState g = .armed ∨ u.groupState g = .due) (k : (u.withdrawGroup g).SameChain t) : s.Turns t
  | masterBoundary (line : Bool) (hrole : s.clc.straps.role = .master) (hline : line = true → s.csu.rdyReleased = true) :
      s.Turns (s.masterBoundary line)
  | takesWord (w : SyncWord) (hrole : s.clc.straps.role = .slave) (hsync : s.csu.sync = .locked) : s.Turns (s.takeWord w)
  | relocks {u : State} (w : SyncWord) (h : s.SameChain u) (hrole : u.clc.straps.role = .slave) (hsync : u.csu.sync ≠ .locked) :
      s.Turns (u.relock w)
  | losesSync {u : State} (h : s.SameChain u) (hrole : u.clc.straps.role = .slave) (hsync : u.csu.sync = .locked) : s.Turns u.loseSync
  | recordEnds (sel : Selection) (hsync : s.csu.sync = .locked) : s.Turns (s.evaluateWhere sel s.csu.frame).retestRdy
  | prepares : s.Turns s.completePreparation

section
variable {s : State}

/-- What a command past the link's tests makes of the agreement. -/
theorem State.ByCommand.turns {u v t : State} {r : Result} (h : s.SameChain u) (hc : u.ByCommand v r) (k : v.SameChain t) : s.Turns t := by
  have same : u.SameChain v → s.Turns t := fun hv => .same ((h.trans hv).trans k)
  cases hc with
  | answers _ _ hq => exact same hq.sameChain
  | tiles _ _ _ _ => exact same (State.sameChain_of_eq rfl rfl rfl)
  | power ts on warmUp =>
    rw [State.storeWarmUp_eq] at k
    refine .same (h.trans (State.SameChain.trans ?_ k))
    exact State.sameChain_of_eq rfl rfl rfl
  | stops => exact .retests .config h k
  | starts => exact .starts h k
  | resets => 
    exact .cleared (State.Cleared.of_same u.cleared_keepValues
      (State.SameChain.trans (t := u.keepValues.startingFor shortStart) (State.sameChain_of_eq rfl rfl rfl) k))
  | defines i d _ _ hnamed _ _ =>
    refine .surface i _ h ?_ k
    cases hs : u.surface i with
    | empty => exact .inl rfl
    | loading d l =>
      refine .inr (Nat.eq_zero_of_not_pos fun hpos => hnamed ?_)
      unfold SurfaceRec.named
      rw [show (u.sdir.get i).state = .loading d l from hs]
      exact hpos
    | ready d =>
      refine .inr (Nat.eq_zero_of_not_pos fun hpos => hnamed ?_)
      unfold SurfaceRec.named
      rw [show (u.sdir.get i).state = .ready d from hs]
      exact hpos
  | drops i _ _ hrefs => exact .surface i _ h (.inr (Nat.eq_zero_of_not_pos hrefs)) k
  | uploads => exact same (State.sameChain_of_eq rfl rfl rfl)
  | rewrites i r dropped named _ _ hr => exact .rewrites i r dropped named h hr k
  | setsGroup groups _ _ hg =>
    exact same ⟨rfl, rfl, rfl, rfl, hg, rfl, rfl, rfl, rfl, rfl, rfl, rfl, rfl⟩
  | makesDue g _ _ hrole hidle =>
    exact .dues [g] h hrole (List.nodup_singleton g) (fun j hj => .inl (List.mem_singleton.1 hj ▸ hidle)) k
  | arms g _ _ hrole hidle => exact .arms g h hrole hidle k
  | withdraws g _ _ hrole hwait => exact .withdraws g h hrole hwait k

theorem State.endBurst_turns (b : Burst) : s.Turns (s.endBurst b) := by
  have hfreed : s.SameChain (s.freed b) := State.sameChain_of_eq rfl rfl rfl
  have hgrant : ∀ u : State, u.SameChain u.grant := fun u => State.sameChain_of_eq rfl rfl rfl
  match hk : b.kind with
  | .fetch t false =>
    have hdone : (s.freed b).SameChain ((s.freed b).fetchBurstDone t) := by
      rw [State.fetchBurstDone_eq]
      exact State.sameChain_of_eq rfl rfl rfl
    rw [s.endBurst_fetch hk]
    exact .same ((hfreed.trans hdone).trans (hgrant _))
  | .fetch t true =>
    rw [s.endBurst_stale hk]
    exact .same (hfreed.trans (hgrant _))
  | .load =>
    rw [s.endBurst_load hk]
    cases hu : (s.freed b).fsc.upload with
    | none =>
      rw [State.loadBurstDone_none _ hu]
      exact .same (hfreed.trans (hgrant _))
    | some u =>
      have hwritten : s.SameChain ((s.freed b).written b u) := hfreed.trans (State.sameChain_of_eq rfl rfl rfl)
      rw [State.loadBurstDone_some _ hu]
      split
      · generalize ((s.freed b).written b u) = v at hwritten
        rcases v.uploadJob_cases with ⟨e, i, taken, he, hjob⟩ | hother
        · have hended : s.SameChain { v with fsc := v.fsc.endUpload } := hwritten.trans (State.sameChain_of_eq rfl rfl rfl)
          rw [v.completeUpload_upload he hjob]
          refine .loads i taken hended ?_
          split
          · refine .inr (State.SameChain.trans ?_ ((State.sameChain_returnResult _ _ _).trans (hgrant _)))
            exact ⟨rfl, rfl, rfl, rfl, fun _ => rfl, rfl, rfl, rfl, rfl, rfl, rfl, rfl, rfl⟩
          · exact .inl ((State.sameChain_returnResult _ _ _).trans (hgrant _))
        · rw [v.completeUpload_other hother]
          have hended : v.SameChain { v with fsc := v.fsc.endUpload } := State.sameChain_of_eq rfl rfl rfl
          exact .same ((hwritten.trans hended).trans (hgrant _))
      · exact .same (hwritten.trans (hgrant _))

theorem State.takeCueEdge_turns {u : State} (h : s.SameChain u) (cue : CueId) (seen : Bool) : s.Turns (u.takeCueEdge cue seen) := by
  have hset : s.SameChain { u with cbi := { u.cbi with cue := u.cbi.cue.set cue (some seen) } } := h.trans (State.sameChain_of_eq rfl rfl rfl)
  by_cases hrole : u.clc.straps.role = .master
  · have hlist : u.cueTriggered cue (directionOf seen) = (List.finRange 8).filter fun g => (u.groups.get g).watches cue (directionOf seen) :=
      if_pos hrole
    obtain ⟨hnodup, hwait⟩ := armed_of_filter (s := u) (p := fun g => (u.groups.get g).watches cue (directionOf seen))
      fun _ => GroupRec.watches_armed
    refine .dues (u.cueTriggered cue (directionOf seen)) hset hrole (hlist ▸ hnodup) (fun g hg => hwait g (hlist ▸ hg)) ?_
    exact State.sameChain_of_eq rfl rfl rfl
  · have hlist : u.cueTriggered cue (directionOf seen) = [] := if_neg hrole
    unfold State.takeCueEdge
    rw [hlist]
    exact .same (hset.trans (State.sameChain_of_eq rfl rfl rfl))

/-- What a row makes of the agreement. -/
theorem State.Becomes.turns {t : State} (h : s.Becomes t) : s.Turns t := by
  cases h with
  | quiet hq => exact .same hq.sameChain
  | command code broadcast _ _ hq hc => exact hc.turns hq.sameChain (State.sameChain_finish code broadcast (_, _))
  | fullReset straps pins e => exact .cleared (s.cleared_afterFullReset straps pins e)
  | keepReset pins e =>
    exact .cleared (State.Cleared.of_same (State.cleared_keepValues { s with pins := pins }) (State.sameChain_of_eq rfl rfl rfl))
  | startingEnds n _ =>
    refine .retests (u := { s.atLeast n with
      cbi := (s.atLeast n).cbi.sampleCues (s.atLeast n).pins.cue (s.atLeast n).now
      fsc := (s.atLeast n).fsc.firstWindow (s.atLeast n).now, csu := (s.atLeast n).csu.startTiming (s.atLeast n).now }) .config ?_
      (.refl _)
    exact State.sameChain_of_eq rfl rfl rfl
  | running e _ _ => exact .retests .running (.refl s) (State.sameChain_returnResult _ _ _)
  | masterBoundary line hrole hline => exact .masterBoundary line hrole hline
  | frameTriggers n f hrole =>
    obtain ⟨hnodup, hwait⟩ := armed_of_filter (s := s.atLeast n) ((s.atLeast n).frameTriggered_armed f)
    exact .dues _ (State.sameChain_of_eq (t := s.atLeast n) rfl rfl rfl) hrole hnodup hwait (.refl _)
  | losesCount _ => exact .same (State.sameChain_of_eq rfl rfl rfl)
  | takesWord w hrole hsync => exact .takesWord w hrole hsync
  | countsWord w _ => exact .same (State.sameChain_of_eq rfl rfl rfl)
  | relocks w hrole hsync => exact .relocks w (State.sameChain_of_eq (t := s.countWord w) rfl rfl rfl) hrole hsync
  | losesSync n hrole hsync => exact .losesSync (State.sameChain_of_eq (t := s.atLeast n) rfl rfl rfl) hrole hsync
  | freeRuns n f _ _ =>
    exact .retests s.phase (State.sameChain_of_eq (t := (s.atLeast n).beginFrame f) rfl rfl rfl) (State.sameChain_closeBoundary _)
  | retests n => exact .retests s.phase (State.sameChain_of_eq (t := s.atLeast n) rfl rfl rfl) (.refl _)
  | recordEnds sel hsync => exact .recordEnds sel hsync
  | prepares => exact .prepares
  | line t n =>
    rw [State.line_eq]
    exact .same (State.sameChain_of_eq rfl rfl rfl)
  | burst b _ _ => exact s.endBurst_turns b
  | window n => exact .same (State.sameChain_of_eq rfl rfl rfl)
  | warmedUp t n endsAt _ => exact .same (State.sameChain_of_eq rfl rfl rfl)
  | portBoundary t => exact .same (State.sameChain_of_eq rfl rfl rfl)
  | status t locked temperature hot _ => exact .same (State.sameChain_of_eq rfl rfl rfl)
  | cueEdge cue level seen n =>
    have hpin : s.SameChain ((s.setCuePin cue level).atLeast n) := State.sameChain_of_eq rfl rfl rfl
    exact State.takeCueEdge_turns hpin cue seen

end

/-- A property of the agreement that each of these outcomes keeps is kept by every step. -/
theorem stepKeeps_of_turns {P : State → Prop} (hturn : ∀ s t : State, s.Turns t → P s → P t) : StepKeeps P :=
  stepKeeps_of_becomes (fun _ _ h => hturn _ _ (.same h.sameChain)) fun _ _ h => hturn _ _ h.turns

/-- The word of a master and the frame triggers of its boundary leave the link. -/
theorem State.masterFired_clc (s : State) (line : Bool) :
    (((s.masterSent line).actOn (s.masterWord line) s.csu.frame).fireFrameTriggers (s.csu.frame + 1)).clc = s.clc := by
  obtain ⟨_, _, hacted, _⟩ := ((s.masterSent line).actOn_within (s.masterWord line) s.csu.frame).sync
  unfold State.fireFrameTriggers
  rw [State.makeAllDue_eq]
  exact hacted

theorem State.masterBoundary_role (s : State) (line : Bool) : (s.masterBoundary line).clc.straps.role = s.clc.straps.role :=
  (State.sameGroups_finishBoundary _ _ _).role.trans (congrArg (fun c : Clc => c.straps.role) (s.masterFired_clc line))

/-! ### The groups -/

section
variable {s : State}

/-- A row on a master keeps its groups in order where it keeps what they say of one another. -/
theorem State.GroupsInv.master {u t : State} (h : s.GroupsInv) (hu : s.SameChain u) (hrole : u.clc.straps.role = .master)
    (ht : t.clc.straps.role = .master) (hkeep : u.MasterGroups → t.MasterGroups) : t.GroupsInv := by
  obtain ⟨_, hmaster, _⟩ := State.groupsInv_iff.1 h
  exact State.groupsInv_of_master ht (hkeep ((hmaster (hu.role.symm.trans hrole)).congr hu.sameGroups))

theorem State.GroupsInv.turns {t : State} (h : s.GroupsInv) (k : s.Turns t) : t.GroupsInv := by
  have after : ∀ {u v w : State}, s.SameChain u → v.SameChain w → u.SameGroups v → w.GroupsInv := fun hu hw hv =>
    ((h.congr hu.sameGroups).congr hv).congr hw.sameGroups
  cases k with
  | same hs => exact h.congr hs.sameGroups
  | cleared hc => exact hc.groupsInv
  | retests p hu k => exact after hu k (State.sameGroups_of_eq rfl rfl rfl rfl)
  | starts hu k => exact after hu k (State.sameGroups_of_eq rfl rfl rfl rfl)
  | surface i st hu _ k => exact after hu k (State.sameGroups_of_eq rfl rfl rfl rfl)
  | loads i taken hu k =>
    rcases k with k | k <;> exact after hu k (State.sameGroups_of_eq rfl rfl rfl rfl)
  | rewrites i r dropped named hu _ k =>
    refine after hu k ?_
    rw [State.rewrite_eq]
    exact State.sameGroups_of_eq rfl rfl rfl rfl
  | @dues u t gs hu hrole hnodup hwait k =>
    have hrole' : (u.makeAllDue gs).clc.straps.role = .master := by rw [u.makeAllDue_eq gs]; exact hrole
    exact (h.master hu hrole hrole' fun hm => hm.makesDue hnodup hwait).congr k.sameGroups
  | @arms u t g hu hrole hidle k =>
    refine State.GroupsInv.congr (h.master (t := u.setGroupState g .armed) hu hrole hrole fun hm => ?_) k.sameGroups
    have hnotin : g ∉ u.due := fun hg => by
      obtain ⟨_, _, _, hmem, _⟩ := hm
      rw [(hmem g).1 hg] at hidle
      cases hidle
    refine hm.sets (.inr rfl) (fun f hf => by rw [hidle] at hf; cases hf) (due := u.due) (List.filter_eq_self.2 fun k hk => ?_).symm
    exact decide_eq_true fun he => hnotin (he ▸ hk)
  | @withdraws u t g hu hrole hwait k =>
    refine State.GroupsInv.congr (h.master (t := u.withdrawGroup g) hu hrole hrole fun hm => ?_) k.sameGroups
    exact hm.sets (.inl rfl) (fun f hf => by rw [hf] at hwait; exact hwait.elim nofun nofun) rfl
  | masterBoundary line hrole _ =>
    refine h.master (.refl s) hrole ?_ fun hm => hm.masterBoundary line
    rw [State.masterBoundary_role]
    exact hrole
  | takesWord w hrole hsync => exact h.takeWord hrole hsync w
  | relocks w hu hrole hsync => exact (h.congr hu.sameGroups).relock hrole hsync w
  | losesSync hu hrole hsync => exact (h.congr hu.sameGroups).loseSync hrole hsync
  | recordEnds sel _ => exact h.congr (State.sameGroups_of_eq rfl rfl rfl rfl)
  | prepares =>
    unfold State.completePreparation
    split
    · exact h.congr (State.sameGroups_of_eq rfl rfl rfl rfl)
    · exact h

end

/-- Settles O56: by the outcomes of a row, with the master's boundary taken apart by its word and a slave's by R95 to R105. -/
theorem groupsKept : Obligations.GroupsKept := by
  unfold Obligations.GroupsKept
  exact stepKeeps_of_turns fun _ _ k h => h.turns k

end Sys2Proof.Machine

/-! SUPPORT. RDY: what a re-test says of the part, and that every step keeps a part that releases RDY ready to cut. -/

namespace Sys2Proof.Machine

/-- While the part releases RDY it is ready to cut and has given readiness (R100). -/
def State.ReadyIfReleased (s : State) : Prop := s.csu.rdyReleased = true → s.ReadyToCut ∧ s.csu.readinessGiven = true

theorem State.rdyInv_iff {s : State} : s.RdyInv ↔ s.RefsInv ∧ s.GroupsInv ∧ s.ReadyIfReleased := Iff.rfl

/-! ### The surfaces a group needs -/

/-- The surfaces that a record makes its group need (R100). -/
def Placement.needs (g : GroupId) : Placement → List SurfaceId
  | .staged h v => if h = g then [v.surface] else []
  | .live h _ _ _ p => if h = g then Pending.surfaces p else []
  | _ => []

theorem State.mem_neededSurfaces_needs {s : State} {g : GroupId} {j : SurfaceId} :
    j ∈ s.neededSurfaces g ↔ ∃ i, j ∈ (s.ptab.get i).needs g := by
  have hneeds : s.neededSurfaces g = s.ptab.rows.flatMap (Placement.needs g) := rfl
  rw [hneeds, List.mem_flatMap]
  simp only [Table.mem_rows, exists_exists_eq_and]

/-- A record of another group makes a group need nothing. -/
theorem Placement.needs_of_other {g : GroupId} {r : Placement} (h : r.group ≠ some g) : r.needs g = [] := by
  cases r with
  | free => rfl
  | staged k v => exact if_neg fun he => h (congrArg some he)
  | live k v a b p => exact if_neg fun he => h (congrArg some he)
  | fading k v a b c => rfl

/-- A surface needed is one that a slot names. -/
theorem Placement.mem_slots_of_needs {g : GroupId} {r : Placement} {j : SurfaceId} (h : j ∈ r.needs g) : j ∈ r.slots := by
  cases r with
  | free => cases h
  | fading k v a b c => cases h
  | staged k v =>
    simp only [Placement.needs] at h
    split at h
    · exact h
    · cases h
  | live k v a b p =>
    simp only [Placement.needs] at h
    split at h
    · exact List.mem_cons_of_mem _ h
    · cases h

theorem State.slotCount_pos_of_needed {s : State} {g : GroupId} {j : SurfaceId} (h : j ∈ s.neededSurfaces g) : 0 < s.slotCount j := by
  obtain ⟨i, hi⟩ := State.mem_neededSurfaces_needs.1 h
  exact List.count_pos_iff.2 (List.mem_flatMap.2 ⟨_, Table.get_mem_rows s.ptab i, Placement.mem_slots_of_needs hi⟩)

/-! ### The re-test -/

section
variable {s t : State}

theorem State.wordFresh_iff : s.wordFresh = true ↔ s.WordIsFresh := by
  unfold State.wordFresh State.WordIsFresh Rate.period
  cases s.clc.straps.role with
  | master => exact ⟨fun _ => nofun, fun _ => rfl⟩
  | slave =>
    cases s.csu.lossTimer with
    | none => exact ⟨nofun, fun h => absurd (h rfl) (by simp)⟩
    | some since => simp

/-- The conditions of R100, one by one. -/
theorem State.GroupsInv.rdyConditions_iff (h : s.GroupsInv) : s.rdyConditions = true ↔ s.ReadyToCut ∧ s.WordIsFresh := by
  obtain ⟨hone, _, _⟩ := State.groupsInv_iff.1 h
  have hgroup : (match s.nominatedGroup with
      | none => false
      | some g => decide (s.cvb.prep = .complete g) && (s.neededSurfaces g).all fun i => (s.surface i).isReady) = true
      ↔ ∃ g f, s.groupState g = .nominated f ∧ s.cvb.prep = .complete g ∧ ∀ i ∈ s.neededSurfaces g, (s.surface i).isReady = true := by
    cases hn : s.nominatedGroup with
    | none =>
      have hnone := State.nominatedGroup_eq_none.1 hn
      exact ⟨nofun, fun ⟨g, f, hg, _⟩ => absurd hg (hnone g f)⟩
    | some g =>
      obtain ⟨f, hf⟩ := State.nominatedGroup_some hn
      simp only [Bool.and_eq_true, decide_eq_true_eq, List.all_eq_true]
      refine ⟨fun ⟨hp, hr⟩ => ⟨g, f, hf, hp, hr⟩, fun ⟨k, e, hk, hp, hr⟩ => ?_⟩
      cases hn.symm.trans (hone.nominatedGroup_eq hk)
      exact ⟨hp, hr⟩
  unfold State.rdyConditions State.ReadyToCut
  rw [Bool.and_eq_true, Bool.and_eq_true, Bool.and_eq_true, Bool.and_eq_true, State.wordFresh_iff, decide_eq_true_eq, decide_eq_true_eq,
    decide_eq_true_eq]
  constructor
  · rintro ⟨⟨⟨⟨hphase, hsync⟩, hfresh⟩, hg⟩, hhold⟩
    exact ⟨⟨hphase, hsync, hhold, hgroup.1 hg⟩, hfresh⟩
  · rintro ⟨⟨hphase, hsync, hhold, hg⟩, hfresh⟩
    exact ⟨⟨⟨⟨hphase, hsync⟩, hfresh⟩, hgroup.2 hg⟩, hhold⟩

/-- What a re-test drives (R101). -/
theorem State.GroupsInv.retest_iff (h : s.GroupsInv) : s.retestRdy.csu.rdyReleased = true ↔ s.ReadyToCut ∧ s.WordIsFresh :=
  h.rdyConditions_iff

/-! ### What keeps a part ready -/

theorem State.ReadyToCut.congr (h : s.ReadyToCut) (k : s.SameChain t) : t.ReadyToCut := by
  unfold State.ReadyToCut State.neededSurfaces State.surface at *
  simpa only [k.phase, k.sync, k.hold, k.state, k.cvb, k.ptab, k.sdir] using h

theorem State.ReadyIfReleased.congr (h : s.ReadyIfReleased) (k : s.SameChain t) : t.ReadyIfReleased := fun ht => by
  obtain ⟨hready, hgiven⟩ := h (k.released.symm.trans ht)
  exact ⟨hready.congr k, k.given.trans hgiven⟩

/-- A re-test leaves RDY released only where the part is ready. -/
theorem State.readyIfReleased_of_retested {u : State} (ht : t.GroupsInv) (k : u.retestRdy.SameChain t) : t.ReadyIfReleased := by
  have hu : u.GroupsInv := by
    have hback : t.SameGroups u := ⟨fun g => (k.state g).symm, k.due.symm, k.nomination.symm, k.sync.symm, k.role.symm⟩
    exact ht.congr hback
  refine State.ReadyIfReleased.congr (fun hr => ?_) k
  have hr' : u.rdyConditions = true := hr
  exact ⟨((hu.rdyConditions_iff).1 hr').1, by rw [State.retestRdy_csu, hr', Bool.or_true]⟩

/-- A part ready to cut stays so where its group held, its preparation and what the group needs stay. -/
theorem State.ReadyToCut.of_held (h : s.ReadyToCut) (hphase : t.phase = s.phase) (hcsu : t.csu = s.csu) (hcvb : t.cvb = s.cvb)
    (hstate : ∀ g f, s.groupState g = .nominated f → t.groupState g = .nominated f)
    (hneeds : ∀ g f j, s.groupState g = .nominated f → j ∈ t.neededSurfaces g → j ∈ s.neededSurfaces g)
    (hsurface : ∀ g f j, s.groupState g = .nominated f → j ∈ s.neededSurfaces g → (s.surface j).isReady = true →
      (t.surface j).isReady = true) : t.ReadyToCut := by
  obtain ⟨hp, hsync, hhold, g, f, hg, hprep, hall⟩ := h
  refine ⟨hphase.trans hp, hcsu ▸ hsync, hcsu ▸ hhold, g, f, hstate g f hg, hcvb ▸ hprep, fun j hj => ?_⟩
  have hj' := hneeds g f j hg hj
  exact hsurface g f j hg hj' (hall j hj')

theorem State.ReadyIfReleased.of_held (h : s.ReadyIfReleased) (hphase : t.phase = s.phase) (hcsu : t.csu = s.csu) (hcvb : t.cvb = s.cvb)
    (hstate : ∀ g f, s.groupState g = .nominated f → t.groupState g = .nominated f)
    (hneeds : ∀ g f j, s.groupState g = .nominated f → j ∈ t.neededSurfaces g → j ∈ s.neededSurfaces g)
    (hsurface : ∀ g f j, s.groupState g = .nominated f → j ∈ s.neededSurfaces g → (s.surface j).isReady = true →
      (t.surface j).isReady = true) : t.ReadyIfReleased := fun ht => by
  rw [hcsu] at ht ⊢
  obtain ⟨hready, hgiven⟩ := h ht
  exact ⟨hready.of_held hphase hcsu hcvb hstate hneeds hsurface, hgiven⟩

theorem SurfaceState.loadedMore_ready {st : SurfaceState} (taken : Nat) (h : st.isReady = true) : (st.loadedMore taken).isReady = true := by
  cases st with
  | ready d => rfl
  | loading d l => cases h
  | empty => cases h

/-- Groups that are not NOMINATED change state: the group held stays (R65). -/
theorem State.ReadyIfReleased.waits {u : State} (h : u.ReadyIfReleased) (ht : t = { u with groups := t.groups, due := t.due })
    (hstate : ∀ g f, u.groupState g = .nominated f → t.groupState g = .nominated f) : t.ReadyIfReleased := by
  have hneeded : ∀ g, t.neededSurfaces g = u.neededSurfaces g := fun g => by rw [ht]; rfl
  have hsurface : ∀ j, t.surface j = u.surface j := fun j => by rw [ht]; rfl
  refine h.of_held (by rw [ht]) (by rw [ht]) (by rw [ht]) hstate (fun g f j _ hj => hneeded g ▸ hj) fun g f j _ _ hr => ?_
  rw [hsurface]
  exact hr

/-- A placement command acts on a record of a group that is not held, so the group held needs what it needed (R44). -/
theorem State.ReadyIfReleased.rewrite {u : State} (h : u.ReadyIfReleased) {i : PlacementId} {r : Placement} {dropped named : List SurfaceId}
    (hr : u.Rewrites i r dropped named) : (u.rewrite i r dropped named).ReadyIfReleased := by
  have heq := u.rewrite_eq i r dropped named
  refine h.of_held (by rw [heq]) (by rw [heq]) (by rw [heq]) (fun g f hg => ?_) (fun g f j hg hj => ?_) fun g f j _ _ hready => ?_
  · rw [heq]; exact hg
  · have hlocked : u.locks g = true := GroupState.holdsRecords_iff.2 (.of_nominated hg)
    have hother : r.group ≠ some g := fun he => by
      have := hr.unlocked g (.inr he)
      rw [hlocked] at this
      cases this
    obtain ⟨k, hk⟩ := State.mem_neededSurfaces_needs.1 hj
    rw [State.rewrite_ptab, Table.get_set] at hk
    split at hk
    · rw [Placement.needs_of_other hother] at hk
      cases hk
    · exact State.mem_neededSurfaces_needs.2 ⟨k, hk⟩
  · rw [State.rewrite_surface]
    exact hready

/-- A surface that no slot names may change: the group held does not need it (R33). -/
theorem State.ReadyIfReleased.setSurface {u : State} (h : u.ReadyIfReleased) (hrefs : u.RefsInv) {i : SurfaceId} {st : SurfaceState}
    (hunnamed : u.surface i = .empty ∨ (u.sdir.get i).refs = 0) : (u.setSurface i st).ReadyIfReleased := by
  obtain ⟨hcount, hempty⟩ := hrefs
  have hzero : u.slotCount i = 0 := hunnamed.elim (hempty i) fun h0 => (hcount i).symm.trans h0
  refine h.of_held rfl rfl rfl (fun _ _ => id) (fun _ _ _ _ => id) fun g f j _ hj hready => ?_
  have hne : i ≠ j := fun he => absurd (State.slotCount_pos_of_needed hj) (by rw [← he, hzero]; exact Nat.lt_irrefl 0)
  rw [State.setSurface_surface, if_neg hne]
  exact hready

theorem State.ReadyIfReleased.loads {u : State} (h : u.ReadyIfReleased) (i : SurfaceId) (taken : Nat) :
    (u.setSurface i ((u.surface i).loadedMore taken)).ReadyIfReleased := by
  refine h.of_held rfl rfl rfl (fun _ _ => id) (fun _ _ _ _ => id) fun g f j _ hj hready => ?_
  rw [State.setSurface_surface]
  split
  · next hij => exact SurfaceState.loadedMore_ready taken (hij ▸ hready)
  · exact hready

theorem State.RdyInv.turns (h : s.RdyInv) (ht : t.GroupsInv) (k : s.Turns t) : t.ReadyIfReleased := by
  obtain ⟨hrefs, _, hready⟩ := State.rdyInv_iff.1 h
  have closed : ∀ (u : State) (flag : Bool) (f : Frame), u.retestRdy.SameChain ((u.retestRdy.handOver flag f).closeBoundary) :=
    fun u flag f => State.SameChain.trans (t := u.retestRdy.handOver flag f) (State.sameChain_of_eq rfl rfl rfl)
      (State.sameChain_closeBoundary _)
  cases k with
  | same hs => exact hready.congr hs
  | cleared hc => exact fun hr => by rw [hc.released] at hr; cases hr
  | retests p hu k => exact State.readyIfReleased_of_retested ht k
  | starts hu k => exact State.readyIfReleased_of_retested ht k
  | surface i st hu hunnamed k =>
    exact ((hready.congr hu).setSurface (hrefs.congr hu.sdir hu.ptab) hunnamed).congr k
  | loads i taken hu k =>
    rcases k with k | k
    · exact ((hready.congr hu).loads i taken).congr k
    · exact State.readyIfReleased_of_retested ht k
  | rewrites i r dropped named hu hr k => exact ((hready.congr hu).rewrite hr).congr k
  | @dues u t gs hu _ _ hwait k =>
    refine State.ReadyIfReleased.congr (State.ReadyIfReleased.waits (hready.congr hu) (by rw [u.makeAllDue_eq gs]) fun g f hg => ?_) k
    rw [State.makeAllDue_groupState, if_neg fun hm => ?_]
    · exact hg
    · rcases hwait g hm with hw | hw <;> rw [hg] at hw <;> cases hw
  | @arms u t g hu _ hidle k =>
    refine State.ReadyIfReleased.congr (State.ReadyIfReleased.waits (t := u.setGroupState g .armed) (hready.congr hu) rfl fun j f hj => ?_) k
    rw [State.setGroupState_groupState, if_neg fun he => ?_]
    · exact hj
    · rw [← he, hidle] at hj; cases hj
  | @withdraws u t g hu _ hwait k =>
    refine State.ReadyIfReleased.congr (State.ReadyIfReleased.waits (t := u.withdrawGroup g) (hready.congr hu) rfl fun j f hj => ?_) k
    refine (u.setGroupState_groupState g j .idle).trans ((if_neg fun he => ?_).trans hj)
    rw [← he] at hj
    rcases hwait with hw | hw <;> rw [hj] at hw <;> cases hw
  | masterBoundary line _ _ => exact State.readyIfReleased_of_retested ht (closed _ _ _)
  | takesWord w _ _ => exact State.readyIfReleased_of_retested ht (closed _ _ _)
  | relocks w _ _ _ => exact State.readyIfReleased_of_retested ht (closed _ _ _)
  | @losesSync u _ _ _ => exact State.readyIfReleased_of_retested ht (State.sameChain_closeBoundary _)
  | recordEnds sel _ => exact State.readyIfReleased_of_retested ht (.refl _)
  | prepares =>
    unfold State.completePreparation at ht ⊢
    split at ht
    · exact State.readyIfReleased_of_retested ht (.refl _)
    · exact hready

end

/-- Settles O58: a row re-tests RDY, or leaves the group held, its preparation and the surfaces it needs as they were. -/
theorem readinessKept : Obligations.ReadinessKept := by
  unfold Obligations.ReadinessKept
  refine stepKeeps_of_becomes (P := State.RdyInv) (fun s t hq h => ?_) fun s t hb h => ?_
  · obtain ⟨hrefs, hgroups, hready⟩ := State.rdyInv_iff.1 h
    have hsame := hq.sameChain
    exact State.rdyInv_iff.2 ⟨hrefs.congr hsame.sdir hsame.ptab, hgroups.congr hsame.sameGroups, hready.congr hsame⟩
  · obtain ⟨hrefs, hgroups, _⟩ := State.rdyInv_iff.1 h
    have ht := hgroups.turns hb.turns
    exact State.rdyInv_iff.2 ⟨hrefs.draws hb.draws, ht, h.turns ht hb.turns⟩

end Sys2Proof.Machine

/-! SUPPORT. Sets of placements and their composition order: the live set, the post-cut view, the list built from a set. -/

namespace Sys2Proof.Machine

/-! ### Composition order (R113) -/

theorem composedBeforeB_iff {m n : Member} : composedBeforeB m n = true ↔ composedBefore m n := by
  simp [composedBeforeB, composedBefore]

theorem composedBefore_total (m n : Member) : composedBefore m n ∨ composedBefore n m := by
  unfold composedBefore
  omega

theorem composedBefore_trans {m n o : Member} (h : composedBefore m n) (k : composedBefore n o) : composedBefore m o := by
  unfold composedBefore at *
  omega

theorem inCompositionOrder_perm (set : List Member) : (inCompositionOrder set).Perm set := List.perm_insertionSort _ set

theorem mem_inCompositionOrder {set : List Member} {m : Member} : m ∈ inCompositionOrder set ↔ m ∈ set :=
  (inCompositionOrder_perm set).mem_iff

theorem inCompositionOrder_pairwise (set : List Member) : (inCompositionOrder set).Pairwise composedBefore := by
  have htotal : Std.Total fun m n : Member => composedBeforeB m n = true :=
    ⟨fun m n => by rw [composedBeforeB_iff, composedBeforeB_iff]; exact composedBefore_total m n⟩
  have htrans : IsTrans Member fun m n => composedBeforeB m n = true :=
    ⟨fun m n o => by rw [composedBeforeB_iff, composedBeforeB_iff, composedBeforeB_iff]; exact composedBefore_trans⟩
  exact (List.pairwise_insertionSort (fun m n : Member => composedBeforeB m n = true) set).imp composedBeforeB_iff.1

/-! ### Sets of placements (R60, R113) -/

/-- The placements to which a view gives values, in id order. -/
def membersOf (view : Placement → Option Values) (ptab : Table Placement 128) : List Member :=
  ptab.entries.filterMap fun e => (view e.2).map fun v => (e.1, v)

theorem liveSet_eq (ptab : Table Placement 128) : liveSet ptab = membersOf Placement.shown ptab := rfl

theorem postCutView_eq (ptab : Table Placement 128) (g : GroupId) : postCutView ptab g = membersOf (postCutValues g) ptab := rfl

section
variable {view : Placement → Option Values} {ptab : Table Placement 128}

theorem mem_membersOf {i : PlacementId} {v : Values} : (i, v) ∈ membersOf view ptab ↔ view (ptab.get i) = some v := by
  simp only [membersOf, Table.entries_eq, List.mem_filterMap, List.mem_map, List.mem_finRange, true_and, Option.map_eq_some_iff,
    exists_exists_eq_and, Prod.mk.injEq]
  constructor
  · rintro ⟨j, w, hw, rfl, rfl⟩
    exact hw
  · exact fun h => ⟨i, v, h, rfl, rfl⟩

theorem membersOf_ids_nodup : ((membersOf view ptab).map Prod.fst).Nodup := by
  have hids : (membersOf view ptab).map Prod.fst
      = (List.finRange 128).filterMap fun i => (view (ptab.get i)).map fun _ => i := by
    rw [membersOf, Table.entries_eq, List.filterMap_map, List.map_filterMap]
    refine List.filterMap_congr fun i _ => ?_
    show ((view (ptab.get i)).map fun v => (i, v)).map Prod.fst = _
    rw [Option.map_map]
    rfl
  rw [hids]
  refine (List.nodup_finRange 128).filterMap fun i j k hi hj => ?_
  obtain ⟨_, _, rfl⟩ := Option.map_eq_some_iff.1 hi
  obtain ⟨_, _, rfl⟩ := Option.map_eq_some_iff.1 hj
  rfl

end

/-! ### The list built from a set (R112 to R114) -/

theorem Rect.intersects_iff {v : Values} {r : Rect} : v.destination.intersects r = true
    ↔ v.dx < r.x + r.w ∧ r.x < v.dx + v.dw ∧ v.dy < r.y + r.h ∧ r.y < v.dy + v.dh := by
  simp only [Rect.intersects, Bool.and_eq_true, decide_eq_true_eq, and_assoc]
  exact Iff.rfl

section
variable {r : Rect} {set : List Member}

theorem mem_qualifying {m : Member} : m ∈ qualifying (some r) set ↔ m ∈ set ∧ m.2.destination.intersects r = true := by
  rw [qualifying, mem_inCompositionOrder, List.mem_filter]

theorem qualifying_pairwise : (qualifying (some r) set).Pairwise composedBefore := inCompositionOrder_pairwise _

theorem qualifying_ids_nodup (h : (set.map Prod.fst).Nodup) : ((qualifying (some r) set).map Prod.fst).Nodup := by
  have hperm := (inCompositionOrder_perm (set.filter fun m => m.2.destination.intersects r)).map Prod.fst
  exact hperm.nodup_iff.2 (h.sublist (List.filter_sublist.map Prod.fst))

theorem buildCoverage_none : buildCoverage none set = ⟨[], 0⟩ := rfl

theorem buildCoverage_some : buildCoverage (some r) set
    = ⟨((qualifying (some r) set).drop ((qualifying (some r) set).length - 12)).map Prod.fst, (qualifying (some r) set).length - 12⟩ := rfl

end

theorem Placement.shown_eq_some {r : Placement} {v : Values} : r.shown = some v
    ↔ ∃ g a b, (∃ p, r = .live g v a b p) ∨ ∃ f, r = .fading g v a b f := by
  constructor
  · intro h
    cases r with
    | free => cases h
    | staged _ _ => cases h
    | live g w a b p => cases h; exact ⟨g, a, b, .inl ⟨p, rfl⟩⟩
    | fading g w a b f => cases h; exact ⟨g, a, b, .inr ⟨f, rfl⟩⟩
  · rintro ⟨g, a, b, ⟨p, rfl⟩ | ⟨f, rfl⟩⟩ <;> rfl

/-- The values of a record in the post-cut view, by its state (R60). -/
theorem postCutValues_eq_some {g : GroupId} {r : Placement} {v : Values} : postCutValues g r = some v
    ↔ r = .staged g v
      ∨ (∃ h a b p, h ≠ g ∧ r = .live h v a b p)
      ∨ (∃ a b, r = .live g v a b none)
      ∨ (∃ old a b restart, r = .live g old a b (some (.replace v restart)))
      ∨ (∃ a b, r = .live g v a b (some .retire) ∧ v.fadeOut ≠ 0)
      ∨ ∃ h a b f, r = .fading h v a b f := by
  constructor
  · intro h
    cases r with
    | free => cases h
    | fading k w a b f => cases h; exact .inr (.inr (.inr (.inr (.inr ⟨k, a, b, f, rfl⟩))))
    | staged k w =>
      simp only [postCutValues] at h
      split at h
      · next hk => cases h; cases hk; exact .inl rfl
      · cases h
    | live k w a b p =>
      simp only [postCutValues] at h
      split at h
      · next hk =>
        cases hk
        match p, h with
        | none, h => cases h; exact .inr (.inr (.inl ⟨a, b, rfl⟩))
        | some (.replace new restart), h => cases h; exact .inr (.inr (.inr (.inl ⟨w, a, b, restart, rfl⟩)))
        | some .retire, h =>
          simp only at h
          split at h
          · cases h
          · next hfade => cases h; exact .inr (.inr (.inr (.inr (.inl ⟨a, b, rfl, hfade⟩))))
      · next hk => cases h; exact .inr (.inl ⟨k, a, b, p, hk, rfl⟩)
  · rintro (rfl | ⟨h, a, b, p, hne, rfl⟩ | ⟨a, b, rfl⟩ | ⟨old, a, b, restart, rfl⟩ | ⟨a, b, rfl, hfade⟩ | ⟨h, a, b, f, rfl⟩)
    · exact if_pos rfl
    · exact if_neg hne
    · exact if_pos rfl
    · exact if_pos rfl
    · exact (if_pos rfl).trans (if_neg hfade)
    · rfl

/-- Settles O41: the list holds the last twelve of the placements that meet the tile, in composition order. -/
theorem listsBuilt : Obligations.ListsBuilt := by
  unfold Obligations.ListsBuilt
  refine ⟨fun s i v => ?_, fun s g i v => ?_, fun set => buildCoverage_none, fun r set hset => ?_⟩
  · rw [liveSet_eq, mem_membersOf]
    exact Placement.shown_eq_some
  · rw [postCutView_eq, mem_membersOf]
    exact postCutValues_eq_some
  · refine ⟨qualifying (some r) set, fun m => ?_, .of_map _ (qualifying_ids_nodup hset), qualifying_pairwise, rfl, rfl⟩
    rw [mem_qualifying, Rect.intersects_iff]

/-! ### LOOKUP and FIND (R61, R62) -/

section
variable {s : State} {x y : Nat}

theorem mem_recordsAt {i : PlacementId} {v : Values} : (i, v) ∈ s.recordsAt x y ↔ (s.ptab.get i).shown = some v
    ∧ v.dx ≤ x ∧ x < v.dx + v.dw ∧ v.dy ≤ y ∧ y < v.dy + v.dh := by
  rw [State.recordsAt, List.mem_reverse, mem_inCompositionOrder, List.mem_filter, liveSet_eq, mem_membersOf, Rect.contains_iff]

theorem recordsAt_nodup : (s.recordsAt x y).Nodup := by
  have hset : (liveSet s.ptab).Nodup := .of_map _ membersOf_ids_nodup
  exact List.nodup_reverse.2 ((inCompositionOrder_perm _).nodup_iff.2 (hset.filter _))

theorem recordsAt_pairwise : (s.recordsAt x y).Pairwise fun m n => composedBefore n m :=
  List.pairwise_reverse.2 (inCompositionOrder_pairwise _)

end

/-- What LOOKUP says of a record in use (R61). -/
theorem State.lookupOf_eq {s : State} {i : PlacementId} {g : GroupId} {v : Values} (hg : (s.ptab.get i).group = some g)
    (hv : (s.ptab.get i).values = some v) : s.lookupOf i = .lookup ⟨(s.ptab.get i).name, g, v, (s.ptab.get i).liveSince,
      (s.ptab.get i).valuesSince, (s.ptab.get i).fadeStart, (s.ptab.get i).pending.map Pending.kind,
      replaceReport (s.ptab.get i).pending, s.scheduleOf (s.ptab.get i), s.coveredBy i⟩ := by
  simp only [State.lookupOf, hg, hv]

theorem State.lookupOf_free {s : State} {i : PlacementId} (h : s.ptab.get i = .free) : s.lookupOf i = .lookupFree := by
  simp only [State.lookupOf, h, Placement.group]

theorem State.coveredBy_get {s : State} {i : PlacementId} (t : TileId) :
    (s.coveredBy i).get t = decide (i ∈ (s.cvb.active.get t).ids) := by
  rw [State.coveredBy, Table.get_mapIdx, List.contains_eq_mem]

/-- A record in use has a group and values. -/
theorem Placement.values_of_group {r : Placement} (h : r ≠ .free) : ∃ g v, r.group = some g ∧ r.values = some v := by
  cases r with
  | free => exact absurd rfl h
  | staged g v => exact ⟨g, v, rfl, rfl⟩
  | live g v a b p => exact ⟨g, v, rfl, rfl⟩
  | fading g v a b f => exact ⟨g, v, rfl, rfl⟩

/-- A record shown is scheduled at its age, with its cell and weights (R61, R130, R131). -/
theorem State.scheduleOf_shown {s : State} {r : Placement} {v : Values} (h : r.shown = some v) :
    ∃ x, s.scheduleOf r = some x ∧ x.age = r.age s.csu.frame ∧ x.fadeWeight = r.fadeWeight s.csu.frame
      ∧ (∀ d, (s.surface v.surface).desc = some d → x.cell = cellAt v d.cells x.age)
      ∧ x.effectiveWeight = v.alpha * x.fadeWeight / 256 := by
  refine ⟨_, by rw [State.scheduleOf, h, Option.map_some], rfl, rfl, fun d hd => ?_, rfl⟩
  simp only [hd, Option.map_some, Option.getD_some]

/-- What LOOKUP answers, by the record's state (R61). -/
theorem State.lookupOf_report {s : State} {i : PlacementId} {r : LookupReport} (h : s.lookupOf i = .lookup r) :
    (∀ t, r.covered.get t = decide (i ∈ (s.cvb.active.get t).ids))
      ∧ r.state = (s.ptab.get i).name ∧ some r.group = (s.ptab.get i).group ∧ some r.values = (s.ptab.get i).values
      ∧ r.liveSince = (s.ptab.get i).liveSince ∧ r.valuesSince = (s.ptab.get i).valuesSince ∧ r.fadeStart = (s.ptab.get i).fadeStart
      ∧ r.pending = (s.ptab.get i).pending.map Pending.kind ∧ r.pendingReplace = replaceReport (s.ptab.get i).pending
      ∧ r.schedule = s.scheduleOf (s.ptab.get i) := by
  have hused : s.ptab.get i ≠ .free := fun hf => by rw [State.lookupOf_free hf] at h; cases h
  obtain ⟨g, v, hg, hv⟩ := Placement.values_of_group hused
  rw [State.lookupOf_eq hg hv] at h
  cases h
  exact ⟨State.coveredBy_get, rfl, hg.symm, hv.symm, rfl, rfl, rfl, rfl, rfl, rfl⟩

/-- A tile's rectangle holds a point (R62). -/
theorem State.shownAt_eq {s : State} {x y : Nat} {i : PlacementId} : s.shownAt x y i
    = (List.finRange 16).any fun t => (s.held.rects.get t).any (fun r => decide (r.x ≤ x ∧ x < r.x + r.w ∧ r.y ≤ y ∧ y < r.y + r.h))
        && decide (i ∈ (s.cvb.active.get t).ids) := by
  unfold State.shownAt
  refine congrArg _ (funext fun t => ?_)
  rw [List.contains_eq_mem]
  cases s.held.rects.get t with
  | none => rfl
  | some r => simp only [Option.any_some, Rect.contains, Bool.decide_and, Bool.and_assoc]

/-- Settles O27: LOOKUP reads the record, FIND the composition order from its end. -/
theorem placementsReported : Obligations.PlacementsReported := by
  unfold Obligations.PlacementsReported
  refine ⟨fun s unit id ht hid => ?noRecord, fun s unit i ht => ⟨s.lookupOf i, ?lookup, State.lookupOf_free, fun hused => ?used,
    fun r hr => ?report⟩, fun s unit x y ht hpoint => ?offWall, fun s unit x y ht hx hy => ⟨s.recordsAt x y,
      ((s.recordsAt x y).take 16).map (s.findEntry x y), ?find, fun i v => mem_recordsAt, recordsAt_nodup, recordsAt_pairwise, ?entries⟩⟩
  case noRecord =>
    exact exec_replied (c := .lookup id) ht (hop := fun bytes => by simp only [commandOp, opLookup, recordId_eq_none hid])
  case lookup =>
    refine exec_replied (c := .lookup i.val) ht (hop := fun bytes => ?_)
    simp only [commandOp, opLookup, recordId_val]
    rfl
  case used =>
    obtain ⟨g, v, hg, hv⟩ := Placement.values_of_group hused
    exact ⟨_, State.lookupOf_eq hg hv⟩
  case report =>
    obtain ⟨hcovered, hstate, hgroup, hvalues, hlive, hsince, hfade, hpending, hreplace, hschedule⟩ := State.lookupOf_report hr
    refine ⟨hcovered, fun g v hi => ?_, fun g v a b p hi => ?_, fun g v a b f hi => ?_⟩
    all_goals
      rw [hi] at hstate hgroup hvalues hlive hsince hfade hpending hreplace hschedule
      simp only [Placement.group, Placement.values, Option.some.injEq] at hgroup hvalues
    · exact ⟨hstate, hgroup, hvalues, hlive, hsince, hfade, hpending, hschedule⟩
    · obtain ⟨x, hx, hage, hweight, hcell, heffective⟩ := s.scheduleOf_shown (r := .live g v a b p) rfl
      refine ⟨hstate, hgroup, hvalues, hlive, hsince, hfade, fun hp => ?_, fun hp => ?_, fun new restart hp => ?_,
        x, hschedule.trans hx, hage, hage ▸ hweight, hcell, heffective⟩
      · rw [hpending, hp]; rfl
      · rw [hpending, hp]; rfl
      · rw [hpending, hreplace, hp]; exact ⟨rfl, rfl⟩
    · obtain ⟨x, hx, hage, hweight, hcell, heffective⟩ := s.scheduleOf_shown (r := .fading g v a b f) rfl
      exact ⟨hstate, hgroup, hvalues, hlive, hsince, hfade, hpending, x, hschedule.trans hx, hage, hcell, hage ▸ hweight, heffective⟩
  case offWall =>
    refine exec_replied (c := .find x y) ht (hop := fun bytes => ?_)
    have hout : (within 0 16383 x && within 0 16383 y) = false := by
      simp only [within, Bool.and_eq_false_iff, decide_eq_false_iff_not]
      omega
    simp only [commandOp, opFind, hout, Bool.false_eq_true, if_false]
  case find =>
    refine exec_replied (c := .find x y) ht (hop := fun bytes => ?_)
    have hin : (within 0 16383 x && within 0 16383 y) = true := by
      simp only [within, Bool.and_eq_true, decide_eq_true_eq]
      omega
    simp only [commandOp, opFind, hin, if_true]
    rfl
  case entries =>
    refine List.map_congr_left fun m _ => ?_
    rw [State.findEntry, State.shownAt_eq]

end Sys2Proof.Machine

/-! SUPPORT. The coverage lists: what keeps them in order, and CoverageListsKept. -/

namespace Sys2Proof.Machine

/-! ### Lists in order (R112, R113, R119) -/

/-- The ids of a list name records to which `view` gives values that meet the tile's rectangle, in composition order: `State.Names`
of any rectangles and records. -/
def NamesIn (rect : Option Rect) (ptab : Table Placement 128) (view : Placement → Option Values) (ids : List PlacementId) : Prop :=
  (∀ i ∈ ids, ∃ v r, view (ptab.get i) = some v ∧ rect = some r ∧ v.destination.intersects r = true)
    ∧ ids.Pairwise fun i j => ∀ v w, view (ptab.get i) = some v → view (ptab.get j) = some w → composedBefore (i, v) (j, w)

/-- A list that fits a tile: bounded, its ids in order; with no rectangle it is empty. -/
structure Coverage.Fits (rect : Option Rect) (ptab : Table Placement 128) (view : Placement → Option Values) (c : Coverage) : Prop where
  bounded : c.Bounded
  names : NamesIn rect ptab view c.ids
  empty : rect = none → c = ⟨[], 0⟩

/-- The coverage builder's lists in order. -/
structure Cvb.Fits (held : HeldGeometry) (ptab : Table Placement 128) (c : Cvb) : Prop where
  active : ∀ t, (c.active.get t).Fits (held.rects.get t) ptab Placement.shown
  bounded : ∀ t l, c.shadow.get t = some l → l.Bounded
  absent : ∀ t, held.rects.get t = none → c.shadow.get t = none
  idle : c.prep = .none → ∀ t, c.shadow.get t = none
  shadow : ∀ g t l, c.prep = .complete g → c.shadow.get t = some l → NamesIn (held.rects.get t) ptab (postCutValues g) l.ids

/-- The preparation is that of a group held (R119). -/
def State.PreparesHeld (s : State) : Prop := ∀ g, s.cvb.prep.group = some g → (s.groupState g).Locks

theorem State.listsInv_iff {s : State} : s.ListsInv ↔ s.GroupsInv ∧ s.cvb.Fits s.held s.ptab ∧ s.PreparesHeld := by
  constructor
  · rintro ⟨hgroups, hactive, hshadow, hrect, hidle, hprep, hnames, hpost⟩
    exact ⟨hgroups, ⟨fun t => ⟨hactive t, hnames t, fun h => (hrect t h).1⟩, hshadow, fun t h => (hrect t h).2, hidle, hpost⟩,
      fun g hg => GroupState.holdsRecords_iff.1 (hprep g hg)⟩
  · rintro ⟨hgroups, hfits, hprep⟩
    exact ⟨hgroups, fun t => (hfits.active t).bounded, hfits.bounded, fun t h => ⟨(hfits.active t).empty h, hfits.absent t h⟩,
      hfits.idle, fun g hg => GroupState.holdsRecords_iff.2 (hprep g hg), fun t => (hfits.active t).names, hfits.shadow⟩

/-! ### One list -/

section
variable {rect : Option Rect} {ptab ptab' : Table Placement 128} {view view' : Placement → Option Values}

/-- Ids kept, with the values they had. -/
theorem NamesIn.sublist {ids ids' : List PlacementId} (h : NamesIn rect ptab view ids) (hsub : ids'.Sublist ids)
    (hview : ∀ i ∈ ids', view' (ptab'.get i) = view (ptab.get i)) : NamesIn rect ptab' view' ids' := by
  obtain ⟨hmem, hpair⟩ := h
  refine ⟨fun i hi => ?_, ?_⟩
  · rw [hview i hi]
    exact hmem i (hsub.subset hi)
  · refine (List.Pairwise.and_mem.1 (hpair.sublist hsub)).imp fun ⟨hi, hj, hbefore⟩ => ?_
    rw [hview _ hi, hview _ hj]
    exact hbefore

theorem Coverage.bounded_sublist {c : Coverage} (h : c.Bounded) {ids : List PlacementId} (hsub : ids.Sublist c.ids) (n : Nat) :
    Coverage.Bounded ⟨ids, n⟩ := ⟨Nat.le_trans hsub.length_le h.1, h.2.sublist hsub⟩

theorem Coverage.without_sublist (c : Coverage) (removed : List PlacementId) : (c.without removed).ids.Sublist c.ids :=
  List.filter_sublist

theorem Coverage.Fits.without {c : Coverage} (h : c.Fits rect ptab view) (removed : List PlacementId)
    (hview : ∀ i, i ∉ removed → (view (ptab.get i)).isSome = true → view' (ptab'.get i) = view (ptab.get i)) :
    (c.without removed).Fits rect ptab' view' where
  bounded := Coverage.bounded_sublist h.bounded (c.without_sublist removed) _
  names := h.names.sublist (c.without_sublist removed) fun i hi => by
    obtain ⟨hmem, hkept⟩ := List.mem_filter.1 hi
    obtain ⟨v, _, hv, _⟩ := h.names.1 i hmem
    exact hview i (by simpa using hkept) (by rw [hv]; rfl)
  empty := fun hr => by rw [h.empty hr]; rfl

theorem Coverage.fits_empty : Coverage.Fits rect ptab view ⟨[], 0⟩ where
  bounded := ⟨Nat.zero_le _, List.nodup_nil⟩
  names := ⟨nofun, .nil⟩
  empty := fun _ => rfl

/-- The list built from the placements a view gives values to fits (R113, R114). -/
theorem buildCoverage_fits (rect : Option Rect) (ptab : Table Placement 128) (view : Placement → Option Values) :
    (buildCoverage rect (membersOf view ptab)).Fits rect ptab view := by
  cases rect with
  | none => exact Coverage.fits_empty
  | some r =>
    have hnodup := qualifying_ids_nodup (r := r) (membersOf_ids_nodup (view := view) (ptab := ptab))
    have hmem : ∀ m ∈ qualifying (some r) (membersOf view ptab), view (ptab.get m.1) = some m.2
        ∧ m.2.destination.intersects r = true := fun m hm => by
      obtain ⟨hset, hmeets⟩ := mem_qualifying.1 hm
      exact ⟨mem_membersOf.1 hset, hmeets⟩
    have hpair := qualifying_pairwise (r := r) (set := membersOf view ptab)
    rw [buildCoverage_some]
    generalize qualifying (some r) (membersOf view ptab) = q at hnodup hmem hpair ⊢
    have hsub := List.drop_sublist (q.length - 12) q
    refine ⟨⟨?_, hnodup.sublist (hsub.map _)⟩, ⟨fun i hi => ?_, ?_⟩, nofun⟩
    · rw [List.length_map, List.length_drop]
      omega
    · obtain ⟨m, hm, rfl⟩ := List.mem_map.1 hi
      obtain ⟨hv, hmeets⟩ := hmem m (hsub.subset hm)
      exact ⟨m.2, r, hv, rfl, hmeets⟩
    · refine List.pairwise_map.2 ((List.Pairwise.and_mem.1 (hpair.sublist hsub)).imp fun {m n} ⟨hm, hn, hbefore⟩ v w hv hw => ?_)
      have hv' := (hmem m (hsub.subset hm)).1
      have hw' := (hmem n (hsub.subset hn)).1
      cases hv.symm.trans hv'
      cases hw.symm.trans hw'
      exact hbefore

end

/-! ### The builder's operations -/

section
variable {held : HeldGeometry} {ptab ptab' : Table Placement 128} {c : Cvb}

/-- Lists whose shadow is absent are in order where the active ones are. -/
theorem Cvb.fits_of_active (hactive : ∀ t, (c.active.get t).Fits (held.rects.get t) ptab Placement.shown)
    (hshadow : ∀ t, c.shadow.get t = none) : c.Fits held ptab where
  active := hactive
  bounded := fun t l hl => by rw [hshadow t] at hl; cases hl
  absent := fun t _ => hshadow t
  idle := fun _ => hshadow
  shadow := fun g t l _ hl => by rw [hshadow t] at hl; cases hl

theorem Cvb.fits_begin (hactive : ∀ t, (c.active.get t).Fits (held.rects.get t) ptab Placement.shown) (held' : HeldGeometry) (g : GroupId) :
    (c.begin held' g).Fits held ptab := Cvb.fits_of_active hactive fun t => Table.get_replicate _ t

theorem Cvb.fits_drop (hactive : ∀ t, (c.active.get t).Fits (held.rects.get t) ptab Placement.shown) : c.drop.Fits held ptab :=
  Cvb.fits_of_active hactive fun t => Table.get_replicate _ t

theorem Cvb.Fits.restart (h : c.Fits held ptab) : (c.restart held).Fits held ptab := by
  unfold Cvb.restart
  split
  · exact h
  · exact Cvb.fits_begin h.active held _
  · exact Cvb.fits_begin h.active held _

theorem Cvb.Fits.dropFor (h : c.Fits held ptab) (g : GroupId) : (c.dropFor g).Fits held ptab := by
  unfold Cvb.dropFor
  split
  · exact Cvb.fits_drop h.active
  · exact h

/-- Records change: what is removed from the lists, or keeps the values shown there, leaves them in order; a complete preparation
asks the same of the post-cut view. -/
theorem Cvb.Fits.without (h : c.Fits held ptab) (removed : List PlacementId)
    (hshown : ∀ i, i ∉ removed → (ptab.get i).shown.isSome = true → (ptab'.get i).shown = (ptab.get i).shown)
    (hpost : ∀ g, c.prep = .complete g → ∀ i, i ∉ removed → (postCutValues g (ptab.get i)).isSome = true →
      postCutValues g (ptab'.get i) = postCutValues g (ptab.get i)) : (c.without removed).Fits held ptab' := by
  have hmap : ∀ t l, (c.without removed).shadow.get t = some l → ∃ k, c.shadow.get t = some k ∧ l = k.without removed := fun t l hl => by
    simp only [Cvb.without, Table.get_mapIdx, Option.map_eq_some_iff] at hl
    obtain ⟨k, hk, rfl⟩ := hl
    exact ⟨k, hk, rfl⟩
  have hnone : ∀ t, c.shadow.get t = none → (c.without removed).shadow.get t = none := fun t ht => by
    simp only [Cvb.without, Table.get_mapIdx, ht, Option.map_none]
  refine ⟨fun t => ?_, fun t l hl => ?_, fun t ht => hnone t (h.absent t ht), fun hp t => hnone t (h.idle hp t), fun g t l hp hl => ?_⟩
  · simp only [Cvb.without, Table.get_mapIdx]
    exact (h.active t).without removed hshown
  · obtain ⟨k, hk, rfl⟩ := hmap t l hl
    exact Coverage.bounded_sublist (h.bounded t k hk) (k.without_sublist removed) _
  · obtain ⟨k, hk, rfl⟩ := hmap t l hl
    refine (h.shadow g t k hp hk).sublist (k.without_sublist removed) fun i hi => ?_
    obtain ⟨hmem, hkept⟩ := List.mem_filter.1 hi
    obtain ⟨v, _, hv, _⟩ := (h.shadow g t k hp hk).1 i hmem
    exact hpost g hp i (by simpa using hkept) (by rw [hv]; rfl)

/-- The lists with what a record shows left as it was (R113). -/
theorem Cvb.Fits.congr (h : c.Fits held ptab) (hshown : ∀ i, (ptab'.get i).shown = (ptab.get i).shown)
    (hpost : ∀ g, c.prep = .complete g → ∀ i, postCutValues g (ptab'.get i) = postCutValues g (ptab.get i)) : c.Fits held ptab' where
  active := fun t => ⟨(h.active t).bounded, (h.active t).names.sublist (List.Sublist.refl _) fun i _ => hshown i, (h.active t).empty⟩
  bounded := h.bounded
  absent := h.absent
  idle := h.idle
  shadow := fun g t l hp hl => (h.shadow g t l hp hl).sublist (List.Sublist.refl _) fun i _ => hpost g hp i

theorem buildActive_fits (held : HeldGeometry) (ptab : Table Placement 128) (t : TileId) :
    ((buildActive held ptab).get t).Fits (held.rects.get t) ptab Placement.shown := by
  rw [buildActive, Table.get_mapIdx, liveSet_eq]
  exact buildCoverage_fits _ _ _

theorem Cvb.fits_reset (held : HeldGeometry) (ptab : Table Placement 128) : Cvb.reset.Fits held ptab :=
  Cvb.fits_of_active (fun t => by rw [show Cvb.reset.active.get t = ⟨[], 0⟩ from Table.get_replicate _ t]; exact Coverage.fits_empty)
    fun t => Table.get_replicate _ t

/-- A preparation that completes (R120). -/
theorem Cvb.Fits.completes (h : c.Fits held ptab) (g : GroupId) :
    Cvb.Fits held ptab { c with prep := .complete g, shadow := buildShadow held ptab g } := by
  have hbuilt : ∀ t l, (buildShadow held ptab g).get t = some l →
      ∃ r, held.rects.get t = some r ∧ l = buildCoverage (some r) (membersOf (postCutValues g) ptab) := fun t l hl => by
    rw [buildShadow, Table.get_mapIdx, Option.map_eq_some_iff] at hl
    obtain ⟨r, hr, rfl⟩ := hl
    exact ⟨r, hr, rfl⟩
  refine ⟨h.active, fun t l hl => ?_, fun t ht => ?_, nofun, fun k t l hp hl => ?_⟩
  · obtain ⟨r, _, rfl⟩ := hbuilt t l hl
    exact (buildCoverage_fits _ _ _).bounded
  · show (buildShadow held ptab g).get t = none
    rw [buildShadow, Table.get_mapIdx, ht, Option.map_none]
  · cases hp
    obtain ⟨r, hr, rfl⟩ := hbuilt t l hl
    rw [hr]
    exact (buildCoverage_fits _ _ _).names

end

/-! ### Cut and evaluation, record by record -/

/-- A record of no group's own shows in the post-cut view what it shows (R60). -/
theorem postCutValues_of_other {g : GroupId} {r : Placement} (h : r.group ≠ some g) : postCutValues g r = r.shown := by
  cases r with
  | free => rfl
  | fading k v a b f => rfl
  | staged k v => exact if_neg fun he => h (congrArg some he)
  | live k v a b p => exact if_neg fun he => h (congrArg some he)

/-- What a record shows after a cut is what the post-cut view gave it, unless the cut makes it FREE (R60, R80 to R82). -/
theorem Placement.shown_cutAt (g : GroupId) (f : Frame) (r : Placement) (h : (r.cutAt g f).1 ≠ .free) :
    (r.cutAt g f).1.shown = postCutValues g r := by
  cases r with
  | free => rfl
  | fading k v a b c => rfl
  | staged k v =>
    simp only [Placement.cutAt, postCutValues]
    split <;> rfl
  | live k v a b p =>
    simp only [Placement.cutAt, postCutValues] at h ⊢
    split
    · next hk =>
      rw [if_pos hk] at h
      match p, h with
      | none, _ => rfl
      | some (.replace new true), _ => rfl
      | some (.replace new false), h =>
        simp only at h ⊢
        split_ifs at h ⊢
        · exact absurd rfl h
        · rfl
        · rfl
      | some .retire, h =>
        simp only at h ⊢
        split
        · next hfade => rw [if_pos hfade] at h; exact absurd rfl h
        · rfl
    · rfl

/-- A record made FREE by a cut is one that the removals name (R59). -/
theorem State.mem_removalsOf {s : State} {f : PlacementId → Placement → Placement × List SurfaceId} {i : PlacementId} :
    i ∈ s.removalsOf f ↔ s.ptab.get i ≠ .free ∧ (f i (s.ptab.get i)).1 = .free := by
  simp [State.removalsOf]

/-- The evaluation of a record, by its state (R54 to R56). -/
theorem Placement.evaluated_fading {g : GroupId} {v : Values} {a b c : Frame} (f : Frame) : (Placement.fading g v a b c).evaluated f
    = if v.fadeOut ≤ framesSince f c then (.free, [v.surface]) else (.fading g v a b c, []) := by
  simp only [Placement.evaluated, Placement.ended, Placement.completed, Placement.fadeOver, decide_eq_true_eq, List.nil_append]

theorem Placement.evaluated_live {g : GroupId} {v : Values} {a b : Frame} {p : Option Pending} (f : Frame)
    (hend : (Placement.live g v a b p).atEnd f = true) : (Placement.live g v a b p).evaluated f
      = if v.fadeOut ≤ framesSince f (endFrame v a b) then (.free, Pending.surfaces p ++ [v.surface])
        else (.fading g v a b (endFrame v a b), Pending.surfaces p) := by
  have hended : (Placement.live g v a b p).ended f = (.fading g v a b (endFrame v a b), Pending.surfaces p) := if_pos hend
  simp only [Placement.evaluated, hended, Placement.completed, Placement.fadeOver, decide_eq_true_eq]
  split
  · rfl
  · rw [List.append_nil]

theorem Placement.evaluated_running {g : GroupId} {v : Values} {a b : Frame} {p : Option Pending} (f : Frame)
    (hend : ¬ (Placement.live g v a b p).atEnd f = true) :
    (Placement.live g v a b p).evaluated f = (.live g v a b p, []) := by
  have hended : (Placement.live g v a b p).ended f = (.live g v a b p, []) := if_neg hend
  rw [Placement.evaluated, hended]
  rfl

/-- A record evaluated that is not made FREE shows what it showed (R54 to R56). -/
theorem Placement.shown_evaluated (f : Frame) (r : Placement) (h : (r.evaluated f).1 ≠ .free) : (r.evaluated f).1.shown = r.shown := by
  cases r with
  | free => rfl
  | staged k v => rfl
  | fading k v a b c =>
    rw [Placement.evaluated_fading] at h ⊢
    split_ifs at h ⊢
    · exact absurd rfl h
    · rfl
  | live k v a b p =>
    by_cases hend : (Placement.live k v a b p).atEnd f = true
    · rw [Placement.evaluated_live f hend] at h ⊢
      split_ifs at h ⊢
      · exact absurd rfl h
      · rfl
    · rw [Placement.evaluated_running f hend]

/-- The post-cut view of a record evaluated, unless it is made FREE or loses a pending REPLACE (R55, R60). -/
theorem Placement.postCut_evaluated (g : GroupId) (f : Frame) (r : Placement) (hfree : (r.evaluated f).1 ≠ .free)
    (hlost : ∀ k, r.discardAt f ≠ some (g, k)) : postCutValues g (r.evaluated f).1 = postCutValues g r := by
  cases r with
  | free => rfl
  | staged k v => rfl
  | fading k v a b c =>
    rw [Placement.evaluated_fading] at hfree ⊢
    split_ifs at hfree ⊢
    · exact absurd rfl hfree
    · rfl
  | live k v a b p =>
    by_cases hend : (Placement.live k v a b p).atEnd f = true
    · rw [Placement.evaluated_live f hend] at hfree ⊢
      split_ifs at hfree ⊢ with hover
      · exact absurd rfl hfree
      · by_cases hk : k = g
        · subst hk
          match p with
          | none => exact (if_pos rfl).symm
          | some (.replace new restart) => exact absurd (if_pos hend) (hlost new.surface)
          | some .retire =>
            have hfade : v.fadeOut ≠ 0 := fun h0 => hover (h0 ▸ Nat.zero_le _)
            exact ((if_pos rfl).trans (if_neg hfade)).symm
        · exact (if_neg hk).symm
    · rw [Placement.evaluated_running f hend]

/-! ### The part's lists -/

section
variable {s t : State}

/-- The lists and the preparation in order, whatever the groups say of one another. -/
def State.ListsFit (s : State) : Prop := s.cvb.Fits s.held s.ptab ∧ s.PreparesHeld

/-- Changes beside the lists, the records and the groups held. -/
theorem State.ListsFit.congr (h : s.ListsFit) (hcvb : t.cvb = s.cvb) (hheld : t.held = s.held) (hptab : t.ptab = s.ptab)
    (hstate : ∀ g, (s.groupState g).Locks → (t.groupState g).Locks) : t.ListsFit := by
  obtain ⟨hfits, hprep⟩ := h
  refine ⟨by rw [hcvb, hheld, hptab]; exact hfits, fun g hg => ?_⟩
  rw [hcvb] at hg
  exact hstate g (hprep g hg)

theorem State.ListsFit.same (h : s.ListsFit) (k : s.SameChain t) : t.ListsFit :=
  h.congr k.cvb k.held k.ptab fun g hg => by rw [k.state g]; exact hg

theorem Cvb.begin_group (held : HeldGeometry) (g : GroupId) (c : Cvb) : (c.begin held g).prep.group = some g := by
  unfold Cvb.begin
  split <;> rfl

theorem Cvb.restart_group (held : HeldGeometry) (c : Cvb) : (c.restart held).prep.group = c.prep.group := by
  unfold Cvb.restart
  split
  · rfl
  · next g hg => rw [Cvb.begin_group, hg]; rfl
  · next g hg => rw [Cvb.begin_group, hg]; rfl

/-- START (R115). -/
theorem State.ListsFit.beginStart (h : s.ListsFit) : s.beginStart.ListsFit := by
  obtain ⟨hfits, hprep⟩ := h
  have hactive := buildActive_fits s.geometryNow s.ptab
  have hlists : s.listsAtStart.Fits s.geometryNow s.ptab := by
    unfold State.listsAtStart Cvb.restart
    split
    · next hp => exact Cvb.fits_of_active hactive (hfits.idle hp)
    · exact Cvb.fits_begin hactive _ _
    · exact Cvb.fits_begin hactive _ _
  have hgroup : s.listsAtStart.prep.group = s.cvb.prep.group := Cvb.restart_group _ _
  exact ⟨hlists, fun g hg => hprep g (hgroup.symm.trans hg)⟩

/-- A nomination begins its preparation (R97). -/
theorem State.ListsFit.nominate (h : s.ListsFit) (g : GroupId) (f : Frame) : (s.nominate g f).ListsFit := by
  obtain ⟨hfits, _⟩ := h
  refine ⟨?_, fun k hk => ?_⟩
  · rw [State.nominate_cvb]
    exact Cvb.fits_begin hfits.active _ _
  · rw [State.nominate_cvb, Cvb.begin_group] at hk
    cases hk
    rw [State.nominate_groupState, if_pos rfl]
    exact .of_nominated rfl

/-- A group that is dropped with its preparation (R85, R105). -/
theorem State.ListsFit.drops (h : s.ListsFit) (g : GroupId) (hcvb : t.cvb = s.cvb.dropFor g) (hheld : t.held = s.held) (hptab : t.ptab = s.ptab)
    (hstate : ∀ k, t.groupState k = if g = k then .idle else s.groupState k) : t.ListsFit := by
  obtain ⟨hfits, hprep⟩ := h
  refine ⟨by rw [hcvb, hheld, hptab]; exact hfits.dropFor g, fun k hk => ?_⟩
  rw [hcvb] at hk
  unfold Cvb.dropFor at hk
  split at hk
  · cases hk
  · next hother =>
    rw [hstate, if_neg fun he : g = k => hother (he ▸ hk)]
    exact hprep k hk

theorem State.ListsFit.abandons (h : s.ListsFit) (g : GroupId) : (s.executeAbandon g).ListsFit :=
  h.drops g rfl rfl rfl (s.executeAbandon_groupState g)

/-- The lists of a complete preparation, swapped in by the cut of its group (R84). -/
theorem Cvb.Fits.swapped (h : s.cvb.Fits s.held s.ptab) {g : GroupId} (hp : s.cvb.prep = .complete g) (f : Frame) (t : TileId) :
    (((s.cvb.shadow.get t).getD ⟨[], 0⟩).without (s.removalsOf fun _ r => r.cutAt g f)).Fits (s.held.rects.get t)
      (s.cutRecords g f).ptab Placement.shown := by
  cases hl : s.cvb.shadow.get t with
  | none => exact Coverage.fits_empty
  | some c =>
    have hc : c.Fits (s.held.rects.get t) s.ptab (postCutValues g) :=
      ⟨h.bounded t c hl, h.shadow g t c hp hl, fun hr => by rw [h.absent t hr] at hl; cases hl⟩
    refine hc.without _ fun i hi hview => ?_
    have hused : s.ptab.get i ≠ .free := fun hf => by rw [hf] at hview; cases hview
    have hcut : ((s.ptab.get i).cutAt g f).1 ≠ .free := fun hf => hi (State.mem_removalsOf.2 ⟨hused, hf⟩)
    exact (congrArg Placement.shown (s.changeRecords_get (fun _ r => r.cutAt g f) i)).trans (Placement.shown_cutAt g f _ hcut)

/-- The lists of a cut, and the preparation left (R84, R122). -/
theorem State.listsAfterCut_fits (h : s.cvb.Fits s.held s.ptab) (g : GroupId) (f : Frame) :
    (s.listsAfterCut g f).Fits s.held (s.cutRecords g f).ptab
      ∧ ∀ k, (s.listsAfterCut g f).prep.group = some k → k ≠ g ∧ s.cvb.prep.group = some k := by
  have hactive := buildActive_fits s.held (s.cutRecords g f).ptab
  have hbuilt : ∀ c : Cvb, c.Fits s.held (s.cutRecords g f).ptab →
      (c.without (s.removalsOf fun _ r => r.cutAt g f)).Fits s.held (s.cutRecords g f).ptab := fun c hc =>
    hc.without _ (fun _ _ _ => rfl) fun _ _ _ _ _ => rfl
  have hother : ∀ (c : Cvb) (k : GroupId), k ≠ g → s.cvb.prep.group = some k → (∀ t, (c.active.get t).Fits (s.held.rects.get t)
      (s.cutRecords g f).ptab Placement.shown) → ((c.begin s.held k).without (s.removalsOf fun _ r => r.cutAt g f)).Fits s.held
        (s.cutRecords g f).ptab ∧ ∀ j, ((c.begin s.held k).without (s.removalsOf fun _ r => r.cutAt g f)).prep.group = some j →
          j ≠ g ∧ s.cvb.prep.group = some j := fun c k hk hgroup hc => by
    refine ⟨hbuilt _ (Cvb.fits_begin hc _ _), fun j hj => ?_⟩
    cases (Cvb.begin_group s.held k c).symm.trans hj
    exact ⟨hk, hgroup⟩
  unfold State.listsAfterCut Cvb.cut
  cases hp : s.cvb.prep with
  | none => exact ⟨hbuilt _ (Cvb.fits_of_active hactive (h.idle hp)), fun k hk => by simp [Cvb.without, Prep.group] at hk⟩
  | inFlight k =>
    simp only
    split
    · exact ⟨hbuilt _ (Cvb.fits_drop hactive), nofun⟩
    · next hk => exact hp ▸ hother _ k hk (by rw [hp]; rfl) hactive
  | complete k =>
    simp only
    split
    · next hk =>
      refine ⟨Cvb.fits_of_active (fun t => ?_) fun t => ?_, nofun⟩
      · simp only [Cvb.without, Table.get_mapIdx]
        exact h.swapped (hk ▸ hp) f t
      · simp only [Cvb.without, Table.get_mapIdx, Table.get_replicate, Option.map_none]
    · next hk => exact hp ▸ hother _ k hk (by rw [hp]; rfl) hactive

/-- A cut (R84). -/
theorem State.ListsFit.cuts (h : s.ListsFit) (g : GroupId) (f : Frame) : (s.executeCut g f).ListsFit := by
  obtain ⟨hfits, hprep⟩ := h
  obtain ⟨hlists, hgroup⟩ := State.listsAfterCut_fits hfits g f
  have hcvb : (s.executeCut g f).cvb = s.listsAfterCut g f := rfl
  have hptab : (s.executeCut g f).ptab = (s.cutRecords g f).ptab := rfl
  refine ⟨?_, fun k hk => ?_⟩
  · rw [hcvb, hptab, State.executeCut_held]
    exact hlists
  · rw [hcvb] at hk
    obtain ⟨hne, hk'⟩ := hgroup k hk
    rw [State.executeCut_groupState, if_neg (Ne.symm hne)]
    exact hprep k hk'

/-! ### An evaluation (R59, R117, R118) -/

theorem Cvb.without_nil (c : Cvb) : c.without [] = c := by
  have hlist : ∀ l : Coverage, l.without [] = l := fun l => by simp [Coverage.without]
  have hactive : c.active.mapIdx (fun _ l => l.without []) = c.active := Table.ext_get fun t => by rw [Table.get_mapIdx, hlist]
  have hshadow : c.shadow.mapIdx (fun _ l => l.map fun k => k.without []) = c.shadow := Table.ext_get fun t => by
    rw [Table.get_mapIdx, funext hlist, Option.map_id']
  rw [Cvb.without, hactive, hshadow]

/-- Removals delete ids, and begin a preparation in flight again where there are any (R117). -/
theorem Cvb.remove_cases (held : HeldGeometry) (removed : List PlacementId) (c : Cvb) :
    c.remove held removed = c.without removed
      ∨ ∃ g, removed ≠ [] ∧ c.prep = .inFlight g ∧ c.remove held removed = (c.without removed).begin held g := by
  unfold Cvb.remove
  split
  · next h => exact .inl (by rw [h, Cvb.without_nil])
  · next h =>
    split
    · next g hg => exact .inr ⟨g, h, hg, rfl⟩
    · exact .inl rfl

theorem Cvb.remove_group (held : HeldGeometry) (removed : List PlacementId) (c : Cvb) :
    (c.remove held removed).prep.group = c.prep.group := by
  rcases c.remove_cases held removed with h | ⟨g, _, hg, h⟩ <;> rw [h]
  · rfl
  · rw [Cvb.begin_group, hg]
    rfl

theorem Cvb.fits_restart {held : HeldGeometry} {ptab : Table Placement 128} {c : Cvb}
    (hactive : ∀ t, (c.active.get t).Fits (held.rects.get t) ptab Placement.shown)
    (hidle : c.prep = .none → ∀ t, c.shadow.get t = none) : (c.restart held).Fits held ptab := by
  unfold Cvb.restart
  split
  · next hp => exact Cvb.fits_of_active hactive (hidle hp)
  · exact Cvb.fits_begin hactive _ _
  · exact Cvb.fits_begin hactive _ _

/-- The lists after an evaluation, where a complete preparation is that of the group NOMINATED (R117, R118). -/
theorem State.coverageAfter_fits (h : s.cvb.Fits s.held s.ptab) (hprep : ∀ g, s.cvb.prep = .complete g → s.nominatedGroup = some g)
    (sel : Selection) (f : Frame) : (s.coverageAfter sel f).Fits s.held (s.changeRecords (evaluationOf sel f)).ptab := by
  have hget : ∀ i, (s.changeRecords (evaluationOf sel f)).ptab.get i = (evaluationOf sel f i (s.ptab.get i)).1 := s.changeRecords_get _
  have hkept : ∀ i, i ∉ s.removalsOf (evaluationOf sel f) → s.ptab.get i ≠ .free → (evaluationOf sel f i (s.ptab.get i)).1 ≠ .free :=
    fun i hi hused hf => hi (State.mem_removalsOf.2 ⟨hused, hf⟩)
  have hshown : ∀ i, i ∉ s.removalsOf (evaluationOf sel f) → (s.ptab.get i).shown.isSome = true →
      ((s.changeRecords (evaluationOf sel f)).ptab.get i).shown = (s.ptab.get i).shown := fun i hi hs => by
    have hfree := hkept i hi fun hf => by rw [hf] at hs; cases hs
    rw [hget i]
    unfold evaluationOf at hfree ⊢
    split
    · next hsel =>
      rw [if_pos hsel] at hfree
      exact Placement.shown_evaluated f _ hfree
    · rfl
  have hactive : ∀ t, ((s.cvb.without (s.removalsOf (evaluationOf sel f))).active.get t).Fits (s.held.rects.get t)
      (s.changeRecords (evaluationOf sel f)).ptab Placement.shown := fun t => by
    simp only [Cvb.without, Table.get_mapIdx]
    exact (h.active t).without _ hshown
  have hidle : s.cvb.prep = .none → ∀ t, (s.cvb.without (s.removalsOf (evaluationOf sel f))).shadow.get t = none := fun hp t => by
    simp only [Cvb.without, Table.get_mapIdx, h.idle hp t, Option.map_none]
  unfold State.coverageAfter
  simp only
  split
  · rcases s.cvb.remove_cases s.held (s.removalsOf (evaluationOf sel f)) with hr | ⟨g, _, _, hr⟩ <;> rw [hr]
    · exact Cvb.fits_restart hactive hidle
    · exact Cvb.fits_restart hactive fun _ t => Table.get_replicate _ t
  · next hnone =>
    rcases s.cvb.remove_cases s.held (s.removalsOf (evaluationOf sel f)) with hr | ⟨g, _, _, hr⟩ <;> rw [hr]
    · refine h.without _ hshown fun g hp i hi hview => ?_
      have hfree := hkept i hi fun hf => by rw [hf] at hview; cases hview
      rw [hget i]
      unfold evaluationOf at hfree ⊢
      split
      · next hsel =>
        rw [if_pos hsel] at hfree
        refine Placement.postCut_evaluated g f _ hfree fun k hk => hnone ?_
        refine List.any_eq_true.2 ⟨(i, g, k), ?_, by simpa using hprep g hp⟩
        refine List.mem_filterMap.2 ⟨i, List.mem_finRange i, ?_⟩
        rw [if_pos hsel, hk]
        rfl
      · rfl
    · exact Cvb.fits_begin hactive _ _

/-- The group held by a part in lock is NOMINATED (R65, R103). -/
theorem State.GroupsInv.nominated_of_locks (h : s.GroupsInv) (hsync : s.csu.sync = .locked) {g : GroupId} (hg : (s.groupState g).Locks) :
    ∃ f, s.groupState g = .nominated f := by
  obtain ⟨_, hmaster, hslave⟩ := State.groupsInv_iff.1 h
  obtain ⟨f, hf | hf⟩ := hg
  · exact ⟨f, hf⟩
  · cases hrole : s.clc.straps.role with
    | master =>
      obtain ⟨_, hdoubt, _⟩ := hmaster hrole
      exact absurd hf (hdoubt g f)
    | slave =>
      obtain ⟨_, _, _, _, hlost⟩ := hslave hrole
      rw [hlost g f hf] at hsync
      cases hsync

theorem State.ListsFit.evaluateWhere (h : s.ListsFit) (hg : s.GroupsInv) (hsync : s.csu.sync = .locked) (sel : Selection) (f : Frame) :
    (s.evaluateWhere sel f).ListsFit := by
  obtain ⟨hfits, hprep⟩ := h
  have hgroup : ∀ k, (s.coverageAfter sel f).prep.group = some k → s.cvb.prep.group = some k := fun k hk => by
    unfold State.coverageAfter at hk
    simp only at hk
    split at hk
    · rw [Cvb.restart_group, Cvb.remove_group] at hk; exact hk
    · rw [Cvb.remove_group] at hk; exact hk
  refine ⟨State.coverageAfter_fits hfits (fun g hp => ?_) sel f, fun k hk => hprep k (hgroup k hk)⟩
  obtain ⟨e, he⟩ := hg.nominated_of_locks hsync (hprep g (by rw [hp]; rfl))
  exact (State.groupsInv_iff.1 hg).1.nominatedGroup_eq he

theorem State.ListsFit.evaluate (h : s.ListsFit) (hg : s.GroupsInv) : s.evaluate.ListsFit := by
  rcases s.evaluate_cases with ⟨hsync, he⟩ | ⟨_, he⟩ <;> rw [he]
  · exact h.evaluateWhere hg hsync _ _
  · exact h

/-- The end of a boundary of a part in lock. -/
theorem State.ListsFit.finishBoundary (h : s.ListsFit) (hg : s.GroupsInv) (flag : Bool) (f : Frame) : (s.finishBoundary flag f).ListsFit := by
  have hretested : ((s.evaluate.retestRdy).handOver flag f).ListsFit := (h.evaluate hg).congr rfl rfl rfl fun _ => id
  exact hretested.same (State.sameChain_closeBoundary _)

end

end Sys2Proof.Machine

/-! SUPPORT. The coverage lists at a boundary and at a command; every step keeps them in order: CoverageListsKept. -/

namespace Sys2Proof.Machine

section
variable {s t : State}

/-! ### Words (R95 to R99) -/

theorem State.ListsFit.checkSequence (h : s.ListsFit) (w : SyncWord) (f : Frame) : (s.checkSequence w f).ListsFit := by
  unfold State.checkSequence
  split
  · split
    · exact h
    · split
      · exact h
      · exact h.abandons _
  · split
    · exact h.cuts _ _
    · exact h.congr rfl rfl rfl fun _ => id

theorem State.ListsFit.takeNominate (h : s.ListsFit) (g : GroupId) (w : SyncWord) : (s.takeNominate g w).ListsFit := by
  unfold State.takeNominate
  split
  · exact h.nominate g w.frame
  · exact h.congr rfl rfl rfl fun _ => id

theorem State.ListsFit.takeAbandon (h : s.ListsFit) (g : GroupId) : (s.takeAbandon g).ListsFit := by
  unfold State.takeAbandon
  split
  · exact h.abandons _
  · split
    · split
      · exact h.abandons _
      · exact h
    · exact h
  · exact h
  · exact h
  · exact h

theorem State.ListsFit.takeCut (h : s.ListsFit) (g : GroupId) (w : SyncWord) : (s.takeCut g w).ListsFit := by
  have htold : ∀ u : State, u.ListsFit → ((u.executeCut g w.frame).adoptSequence w).ListsFit := fun u hu =>
    (hu.cuts g w.frame).congr rfl rfl rfl fun _ => id
  simp only [State.takeCut]
  split
  · exact htold s h
  · exact htold _ (h.congr rfl rfl rfl fun _ => id)

theorem State.ListsFit.actOn (h : s.ListsFit) (w : SyncWord) (f : Frame) : (s.actOn w f).ListsFit := by
  unfold State.actOn
  split
  · exact h.checkSequence w f
  · exact (h.checkSequence w f).takeNominate _ w
  · exact h.takeCut _ w
  · exact (h.checkSequence w f).takeAbandon _

theorem State.ListsFit.takeWord (h : s.ListsFit) (hg : s.GroupsInv) (hrole : s.clc.straps.role = .slave) (hsync : s.csu.sync = .locked)
    (w : SyncWord) : (s.takeWord w).ListsFit := by
  have hopened : (s.wordOpened w).ListsFit := by
    rw [s.wordOpened_eq w]
    exact h.congr rfl rfl rfl fun _ => id
  rw [s.takeWord_eq w]
  exact (hopened.actOn w _).finishBoundary (hg.wordActed hrole hsync w) _ _

/-- Groups that wait become DUE: the group held stays (R73). -/
theorem State.ListsFit.makesDue (h : s.ListsFit) {gs : List GroupId} (hwait : ∀ k ∈ gs, s.groupState k = .idle ∨ s.groupState k = .armed) :
    (s.makeAllDue gs).ListsFit := by
  have heq := s.makeAllDue_eq gs
  refine h.congr (by rw [heq]) (by rw [heq]) (by rw [heq]) fun g hg => ?_
  rw [State.makeAllDue_groupState, if_neg fun hm => ?_]
  · exact hg
  · obtain ⟨f, hf⟩ := hg
    rcases hwait g hm with hw | hw <;> rw [hw] at hf <;> exact hf.elim nofun nofun

theorem State.ListsFit.masterBoundary (h : s.ListsFit) (hrole : s.clc.straps.role = .master) (hm : s.MasterGroups) (line : Bool) :
    (s.masterBoundary line).ListsFit := by
  have hsent : (s.masterSent line).ListsFit := h.congr rfl rfl rfl fun _ => id
  have hacted : ((s.masterSent line).actOn (s.masterWord line) s.csu.frame).ListsFit := hsent.actOn _ _
  have hgroups : ((s.masterActed line).fireFrameTriggers (s.csu.frame + 1)).GroupsInv := by
    refine State.groupsInv_of_master ?_ ((hm.masterActed line).fires _)
    rw [← hm.actOn_masterWord line, s.masterFired_clc line]
    exact hrole
  rw [hm.actOn_masterWord line] at hacted
  rw [hm.masterBoundary_eq line]
  exact (hacted.makesDue fun g hg => (armed_of_filter (State.frameTriggered_armed _ _)).2 g hg).finishBoundary hgroups _ _

/-! ### Loss and relock (R103, R105) -/

theorem State.ListsFit.holdThroughLoss (h : s.ListsFit) : s.holdThroughLoss.ListsFit := by
  unfold State.holdThroughLoss
  split
  · exact h
  · next g _ =>
    split
    · split
      · exact h
      · refine h.congr rfl rfl rfl fun k hk => ?_
        show ((s.setGroupState g _).groupState k).Locks
        rw [State.setGroupState_groupState]
        split
        · exact .of_inDoubt rfl
        · exact hk
    · exact h.abandons g

theorem State.ListsFit.loseSync (h : s.ListsFit) : s.loseSync.ListsFit := by
  have hopened : s.lossOpened.ListsFit := h.congr rfl rfl rfl fun _ => id
  have hretested : s.lossOpened.holdThroughLoss.retestRdy.ListsFit := hopened.holdThroughLoss.congr rfl rfl rfl fun _ => id
  rw [s.loseSync_eq]
  exact hretested.same (State.sameChain_closeBoundary _)

theorem State.ListsFit.compareAtRelock (h : s.ListsFit) (was : SyncState) (w : SyncWord) : (s.compareAtRelock was w).ListsFit := by
  have hreleased : ∀ g : GroupId, (((s.desync .relockGap w [g]).releaseDoubt g).adoptSequence w).ListsFit := fun g => by
    have hdesync : (s.desync .relockGap w [g]).ListsFit := h.congr rfl rfl rfl fun _ => id
    have hdropped : ((s.desync .relockGap w [g]).releaseDoubt g).ListsFit :=
      hdesync.drops g rfl rfl rfl fun k => State.releaseDoubt_groupState (s.desync .relockGap w [g]) g k
    exact hdropped.congr rfl rfl rfl fun _ => id
  unfold State.compareAtRelock
  split
  · unfold State.compareLost
    split
    · split
      · exact h
      · exact h.congr rfl rfl rfl fun _ => id
    · next g _ =>
      split
      · exact h.abandons g
      · split
        · split
          · exact h.cuts g _
          · exact hreleased g
        · exact hreleased g
  · exact h.congr rfl rfl rfl fun _ => id
  · exact h

theorem State.ListsFit.relock (h : s.ListsFit) (hg : s.GroupsInv) (hrole : s.clc.straps.role = .slave) (hsync : s.csu.sync ≠ .locked)
    (w : SyncWord) : (s.relock w).ListsFit := by
  have hopened : (s.lockOpened w).ListsFit := h.congr rfl rfl rfl fun _ => id
  have hcompared : (s.lockCompared w).ListsFit :=
    (hopened.compareAtRelock s.csu.sync w).congr rfl rfl rfl fun k hk => by
      rw [State.lockCompared, State.endComparison_groupState]
      exact hk
  have hevaluated := hcompared.evaluate (hg.lockCompared hrole hsync w)
  have hacted : ((s.lockCompared w).evaluate.actAtRelock w).ListsFit := by
    unfold State.actAtRelock
    split
    · exact hevaluated
    · exact hevaluated.takeNominate _ w
    · exact hevaluated
    · exact hevaluated.takeAbandon _
  have hhanded : ((((s.lockCompared w).evaluate.actAtRelock w).retestRdy).handOver w.blackout w.frame).ListsFit :=
    hacted.congr rfl rfl rfl fun _ => id
  rw [s.relock_eq w]
  exact hhanded.same (State.sameChain_closeBoundary _)

/-! ### Commands and rows -/

/-- A placement command acts on a record of a group that is not held, and leaves what is shown (R44, R46 to R51). -/
theorem State.ListsFit.rewrite (h : s.ListsFit) {i : PlacementId} {r : Placement} {dropped named : List SurfaceId}
    (hr : s.Rewrites i r dropped named) : (s.rewrite i r dropped named).ListsFit := by
  obtain ⟨hfits, hprep⟩ := h
  have heq := s.rewrite_eq i r dropped named
  have hcvb : (s.rewrite i r dropped named).cvb = s.cvb := by rw [heq]
  have hheld : (s.rewrite i r dropped named).held = s.held := by rw [heq]
  have hstate : ∀ g, (s.rewrite i r dropped named).groupState g = s.groupState g := fun g => by rw [heq]; rfl
  refine ⟨?_, fun g hg => by rw [hstate]; rw [hcvb] at hg; exact hprep g hg⟩
  rw [hcvb, hheld, State.rewrite_ptab]
  refine hfits.congr (fun j => ?_) fun g hp j => ?_
  · rw [Table.get_set]
    split
    · next hj => exact hj ▸ hr.shown
    · rfl
  · have hlocked : s.locks g = true := GroupState.holdsRecords_iff.2 (hprep g (by rw [hp]; rfl))
    have hother : ∀ q, q = s.ptab.get i ∨ q = r → q.group ≠ some g := fun q hq he => by
      have hunlocked := hr.unlocked g (hq.elim (fun h => .inl (h ▸ he)) fun h => .inr (h ▸ he))
      rw [hlocked] at hunlocked
      cases hunlocked
    rw [Table.get_set]
    split
    · next hj =>
      rw [← hj, postCutValues_of_other (hother r (.inr rfl)), postCutValues_of_other (hother _ (.inl rfl))]
      exact hr.shown
    · rfl

theorem State.ListsFit.completePreparation (h : s.ListsFit) : s.completePreparation.ListsFit := by
  obtain ⟨hfits, hprep⟩ := h
  unfold State.completePreparation
  split
  · next g hg => exact ⟨hfits.completes g, fun k hk => hprep k (by rw [hg]; exact hk)⟩
  · exact ⟨hfits, hprep⟩

theorem State.ListsInv.turns (h : s.ListsInv) (k : s.Turns t) : t.ListsInv := by
  obtain ⟨hgroups, hfits⟩ := State.listsInv_iff.1 h
  have ht := hgroups.turns k
  suffices hlists : t.ListsFit by exact State.listsInv_iff.2 ⟨ht, hlists⟩
  have hlists : s.ListsFit := hfits
  have after : ∀ {u v : State}, s.SameChain u → v.SameChain t → v.cvb = u.cvb → v.held = u.held → v.ptab = u.ptab →
      (∀ g, v.groupState g = u.groupState g) → t.ListsFit := fun hu k hcvb hheld hptab hstate =>
    ((hlists.same hu).congr hcvb hheld hptab fun g hg => by rw [hstate g]; exact hg).same k
  cases k with
  | same hs => exact hlists.same hs
  | cleared hc =>
    refine ⟨by rw [hc.cvb]; exact Cvb.fits_reset _ _, fun g hg => ?_⟩
    rw [hc.cvb] at hg
    cases hg
  | retests p hu k => exact after hu k rfl rfl rfl fun _ => rfl
  | starts hu k => exact (hlists.same hu).beginStart.same k
  | surface i st hu _ k => exact after hu k rfl rfl rfl fun _ => rfl
  | loads i taken hu k =>
    rcases k with k | k <;> exact after hu k rfl rfl rfl fun _ => rfl
  | rewrites i r dropped named hu hr k => exact ((hlists.same hu).rewrite hr).same k
  | dues gs hu _ _ hwait k => exact ((hlists.same hu).makesDue hwait).same k
  | @arms u t g hu _ hidle k =>
    refine State.ListsFit.same ((hlists.same hu).congr (t := u.setGroupState g .armed) rfl rfl rfl fun j hj => ?_) k
    rw [State.setGroupState_groupState]
    split
    · next he => rw [← he, hidle] at hj; exact absurd hj GroupState.not_locks_idle
    · exact hj
  | @withdraws u t g hu _ hwait k =>
    refine State.ListsFit.same ((hlists.same hu).congr (t := u.withdrawGroup g) rfl rfl rfl fun j hj => ?_) k
    have hne : g ≠ j := fun he => by
      obtain ⟨f, hf⟩ := hj
      rw [← he] at hf
      rcases hwait with hw | hw <;> rw [hw] at hf <;> exact hf.elim nofun nofun
    exact ((u.setGroupState_groupState g j .idle).trans (if_neg hne)) ▸ hj
  | masterBoundary line hrole _ => exact hlists.masterBoundary hrole ((State.groupsInv_iff.1 hgroups).2.1 hrole) line
  | takesWord w hrole hsync => exact hlists.takeWord hgroups hrole hsync w
  | relocks w hu hrole hsync => exact (hlists.same hu).relock (hgroups.congr hu.sameGroups) hrole hsync w
  | losesSync hu _ _ => exact (hlists.same hu).loseSync
  | recordEnds sel hsync => exact (hlists.evaluateWhere hgroups hsync sel _).congr rfl rfl rfl fun _ => id
  | prepares => exact hlists.completePreparation

end

/-- Settles O57: the lists a row builds are in order, and it deletes from the others what no longer shows what they were built from. -/
theorem coverageListsKept : Obligations.CoverageListsKept := by
  unfold Obligations.CoverageListsKept
  exact stepKeeps_of_turns fun _ _ k h => h.turns k

end Sys2Proof.Machine

/-! SUPPORT. Resets and the end of STARTING, START, the blackout input, and what every row answers. -/

namespace Sys2Proof.Machine

/-! ### Power-on -/

/-- Settles O18: the reset value of each field. -/
theorem resetValues : Obligations.ResetValues := by
  unfold Obligations.ResetValues
  have hport : ∀ t, State.reset.ports.get t = Port.powerOn := fun t => Table.get_replicate _ t
  have hframe : ∀ t, State.reset.frames.get t = FrameRec.powerOn := fun t => Table.get_replicate _ t
  have hcmp : ∀ t, State.reset.cmp.get t = CmpTile.reset := fun t => Table.get_replicate _ t
  exact ⟨rfl, rfl, rfl, rfl, rfl, rfl, fun t => Table.get_replicate _ t, fun t => Table.get_replicate _ t,
    fun t => (by rw [hport t]; exact ⟨rfl, rfl, rfl⟩), fun t => (by rw [hframe t]; exact ⟨rfl, rfl⟩),
    fun t => (by rw [hcmp t]; exact ⟨rfl, rfl⟩), rfl, fun i => Table.get_replicate _ i, rfl, fun i => Table.get_replicate _ i,
    fun g => Table.get_replicate _ g, rfl, rfl, rfl, rfl, rfl, rfl, rfl, rfl, rfl, rfl, rfl, rfl, rfl, rfl,
    fun t => ⟨Table.get_replicate _ t, Table.get_replicate _ t⟩, rfl, fun t => Table.get_replicate _ t, rfl, rfl, rfl, rfl, rfl, rfl,
    fun c => ⟨Table.get_replicate _ c, Table.get_replicate _ c⟩, rfl, rfl, rfl,
    fun i => ⟨Table.get_replicate _ i, Table.get_replicate _ i⟩, rfl, rfl, rfl, rfl, rfl, rfl⟩

theorem State.cleared_reset : State.reset.Cleared where
  idle := fun g => congrArg GroupRec.state (Table.get_replicate GroupRec.powerOn g)
  due := rfl
  nomination := rfl
  sync := fun _ => rfl
  released := rfl
  cvb := rfl
  free := fun i => Table.get_replicate _ i

/-- A cleared part's lists are in order. -/
theorem State.Cleared.listsInv {s : State} (h : s.Cleared) : s.ListsInv := by
  refine State.listsInv_iff.2 ⟨h.groupsInv, by rw [h.cvb]; exact Cvb.fits_reset _ _, fun g hg => ?_⟩
  rw [h.cvb] at hg
  cases hg

/-- Settles O60: the part right after power-on names nothing, holds no group and moves nothing. -/
theorem invariantsAtReset : Obligations.InvariantsAtReset := by
  unfold Obligations.InvariantsAtReset
  have hempty : ∀ i, State.reset.surface i = .empty := fun i => congrArg SurfaceRec.state (Table.get_replicate _ i)
  have hrefs : State.reset.RefsInv := State.refsInv_of_free rfl fun i => congrArg SurfaceRec.refs (Table.get_replicate _ i)
  have hcleared := State.cleared_reset
  have htransfers := State.reset.transfersInv_afterFullReset Straps.alone State.reset.pins 0
  exact ⟨hrefs, State.pagesInv_of_empty hempty, hcleared.groupsInv, hcleared.listsInv,
    State.rdyInv_iff.2 ⟨hrefs, hcleared.groupsInv, fun hr => by rw [hcleared.released] at hr; cases hr⟩, ⟨.nil, nofun⟩,
    State.PortsInv.congr (State.reset.portsInv_afterFullReset Straps.alone State.reset.pins 0) rfl rfl rfl rfl,
    htransfers.same ⟨rfl, rfl, rfl, rfl, rfl, rfl, rfl, rfl, rfl, rfl, rfl, rfl⟩⟩

/-! ### The end of STARTING -/

/-- Settles O17: the row's one condition, and the values of the phase entered. -/
theorem startingEndsInConfig : Obligations.StartingEndsInConfig := by
  unfold Obligations.StartingEndsInConfig
  refine ⟨fun s hphase hall hkeep => ?_, fun s h => ?_⟩
  · show execStartingEnd s = _
    unfold execStartingEnd
    rw [if_pos ⟨hphase, hall, hkeep⟩, State.endStarting, State.enterConfig_eq]
    rfl
  · show execStartingEnd s = _
    unfold execStartingEnd
    refine if_neg fun ⟨hphase, hall, hkeep⟩ => ?_
    rcases h with h | h | h
    · exact h hphase
    · rw [hall] at h; cases h
    · rw [hkeep] at h; cases h

/-! ### The blackout input -/

theorem Cbi.settleBlackout_eq (level : Bool) (c : Cbi) : c.settleBlackout level = { c with
    input := level
    latch := match c.mode with | .latch => c.latch || level | _ => false
    state := match c.mode with | .off => false | .level => level | .latch => c.latch || level } := by
  unfold Cbi.settleBlackout Cbi.recomputed
  cases c.mode <;> rfl

/-- Settles O53: the change counts where it has held for 2 ms and differs from the settled level. -/
theorem blackoutInputTaken : Obligations.BlackoutInputTaken := by
  unfold Obligations.BlackoutInputTaken
  refine ⟨fun s level held h => ?_, fun s level held hheld hlevel => ?_⟩
  · exact if_neg fun ⟨hheld, hne⟩ => h.elim (fun hlt => absurd hheld (Nat.not_le.2 hlt)) hne
  · refine (if_pos (And.intro hheld hlevel)).trans ?_
    rw [Cbi.settleBlackout_eq]
    rfl

/-! ### Resets (R36, R148, R182, R185) -/

/-- The bytes outside what a load burst cut short may have written (R148). -/
theorem Memory.read_forget {a b n : Nat} (h : a < b ∨ b + n ≤ a) (m : List Host.Cell) :
    Memory.read (Memory.forget m b n) a = Memory.read m a := by
  induction m with
  | nil => rfl
  | cons c m ih =>
    unfold Memory.forget at ih ⊢
    rw [List.filter_cons]
    split
    · simp only [Memory.read, ih]
    · next hc =>
      have hne : c.1 ≠ a := fun he => hc (by rw [he]; simpa using h)
      simp only [Memory.read, if_neg hne, ih]

theorem PortState.kept_eq (now milliseconds : Nat) (st : PortState) : st.kept now milliseconds = portAfterKeep now milliseconds st := by
  cases st <;> rfl

theorem Csu.kept_eq (role : Role) (c : Csu) : c.kept role = { c with
    sync := if role = .master then .locked else .unlocked
    nomination := none, readinessGiven := false, desyncHold := none, lockRun := 0, lastCounted := none
    lossTimer := none, rdyReleased := false, blackoutFlag := false
    timing := c.timing || (role = .slave && c.sync = .locked) } := by
  cases role <;> rfl

theorem Cbi.sampledAtReset_eq (pin : Bool) (now : Nat) (c : Cbi) : c.sampledAtReset pin now = { c with
    cue := Table.replicate 4 none
    input := pin
    latch := c.mode = .latch && pin
    state := c.mode ≠ .off && pin
    blackoutSampledAt := now } := by
  unfold Cbi.sampledAtReset Cbi.recomputed
  cases hm : c.mode <;> simp [blackoutOf]

theorem Table.mapIdx_eq_ofFn {α β : Type} {n : Nat} (f : Fin n → α → β) (t : Table α n) :
    t.mapIdx f = Table.ofFn fun i => f i (t.get i) := Table.ext_get fun i => by rw [Table.get_mapIdx, Table.get_ofFn]

/-- The frame store after RST_KEEP or SOFT_RESET (R36, R148). -/
theorem Memory.read_keptStore {store : List Host.Cell} {burst : Option Burst} {a : Nat}
    (h : ∀ b, burst = some b → b.kind = .load → a < b.address ∨ b.address + b.length ≤ a) :
    Memory.read (keptStore store burst) a = Memory.read store a := by
  unfold keptStore
  split
  · rfl
  · next b =>
    split
    · next hk => exact Memory.read_forget (h b rfl hk) store
    · rfl

/-- What RST_KEEP and SOFT_RESET leave, with the reset pins and the end of STARTING as they may be. -/
theorem State.afterKeepReset_keepValues (s : State) (pins : Pins) (e : Nat) (hpin : pins.blackout = s.pins.blackout) :
    s.AfterKeepReset { State.keepValues { s with pins := pins } with startingEnd := e } := by
  refine ⟨?_, fun a ha => Memory.read_keptStore ha⟩
  unfold State.keepValues
  simp only [Table.mapIdx_eq_ofFn, Csu.kept_eq, Cbi.sampledAtReset_eq, hpin, PortState.kept_eq]
  rfl

/-- Settles O16: the reset tables, value by value, and the end that each reset gives STARTING. -/
theorem resetsApply : Obligations.ResetsApply := by
  unfold Obligations.ResetsApply
  refine ⟨⟨fun s unit ht => ?soft, fun s hpin => ?assert, fun s hpin => ?release⟩, fun s straps inputs => rfl, fun s hpin => ?allAssert,
    fun s straps hpin => ?allRelease⟩
  case soft =>
    refine ⟨_, ?_, s.afterKeepReset_keepValues s.pins (max s.startingEnd (s.now + 2 * Config.ticksPerMilli)) rfl, rfl, rfl⟩
    rw [show Instr.softReset unit = HostCmd.toInstr unit .softReset from rfl,
      exec_toInstr_of_ne_poll unit (by simp [HostCmd.code]), State.hostCommand_taken (c := .softReset) ht (HostCmd.payload_length_le nofun)]
    rfl
  case assert =>
    refine ⟨_, ?_, s.afterKeepReset_keepValues { s.pins with rstKeep := true } s.startingEnd rfl, rfl, rfl⟩
    show execRstKeepAssert s = _
    unfold execRstKeepAssert
    rw [if_neg (by rw [hpin]; exact nofun)]
    rfl
  case release =>
    refine ⟨_, ?_, s.afterKeepReset_keepValues { s.pins with rstKeep := false } (max s.startingEnd (s.now + 2 * Config.ticksPerMilli)) rfl,
      rfl, rfl⟩
    show execRstKeepRelease s = _
    unfold execRstKeepRelease
    rw [if_pos hpin]
    rfl
  case allAssert =>
    show execRstAllAssert s = _
    unfold execRstAllAssert
    rw [if_neg (by rw [hpin]; exact nofun)]
    rfl
  case allRelease =>
    show execRstAllRelease straps s = _
    unfold execRstAllRelease
    rw [if_pos hpin]
    rfl

end Sys2Proof.Machine

/-! SUPPORT. Every row answers and leaves the queue; START and its completion. -/

namespace Sys2Proof.Machine

/-! ### The queue -/

section
variable {s t : State}

theorem State.ActsWithin.pending (h : s.ActsWithin t) : t.pending = s.pending := by
  obtain ⟨ht, _⟩ := h
  rw [ht]

theorem State.finish_pending (code : Nat) (broadcast : Bool) (r : State × Result) :
    (State.finish code broadcast r).pending = r.1.pending := by
  unfold State.finish
  split <;> rfl

theorem State.ByCommand.pending {r : Result} (h : s.ByCommand t r) : t.pending = s.pending := by
  cases h with
  | answers _ _ _ hqueue => exact hqueue
  | power ts on warmUp =>
    rw [State.storeWarmUp_eq]
    rfl
  | rewrites i r dropped named => rw [State.rewrite_eq]
  | _ => rfl

theorem State.evaluate_pending (s : State) : s.evaluate.pending = s.pending := by
  rcases s.evaluate_cases with ⟨_, h⟩ | ⟨_, h⟩
  · rw [h]
    rfl
  · rw [h]

theorem State.finishBoundary_pending (s : State) (flag : Bool) (f : Frame) : (s.finishBoundary flag f).pending = s.pending := by
  have hclosed : ∀ u : State, u.closeBoundary.pending = u.pending := fun u => by rw [u.closeBoundary_eq]
  exact (hclosed _).trans s.evaluate_pending

theorem State.makeAllDue_pending (s : State) (gs : List GroupId) : (s.makeAllDue gs).pending = s.pending := by rw [s.makeAllDue_eq gs]

theorem State.closeBoundary_pending (s : State) : s.closeBoundary.pending = s.pending := by rw [s.closeBoundary_eq]

theorem State.masterBoundary_pending (s : State) (line : Bool) : (s.masterBoundary line).pending = s.pending := by
  have hacted := ((s.masterSent line).actOn_within (s.masterWord line) s.csu.frame).pending
  exact (State.finishBoundary_pending _ _ _).trans ((State.makeAllDue_pending _ _).trans hacted)

theorem State.takeWord_pending (s : State) (w : SyncWord) : (s.takeWord w).pending = s.pending := by
  have hacted := ((s.wordOpened w).actOn_within w s.csu.frame).pending
  have hopened : (s.wordOpened w).pending = s.pending := by rw [s.wordOpened_eq w]
  exact (State.finishBoundary_pending _ _ _).trans (hacted.trans hopened)

theorem State.compareAtRelock_pending (s : State) (was : SyncState) (w : SyncWord) : (s.compareAtRelock was w).pending = s.pending := by
  unfold State.compareAtRelock
  split
  · unfold State.compareLost
    split
    · split
      · rfl
      · exact State.desync_pending s .relockGap w []
    · next g _ =>
      have hreleased : (((s.desync .relockGap w [g]).releaseDoubt g).adoptSequence w).pending = s.pending :=
        (State.releaseDoubt_pending _ g).trans (State.desync_pending s .relockGap w [g])
      split
      · exact (s.executeAbandon_within g).pending
      · split
        · split
          · exact (s.executeCut_within g _).pending
          · exact hreleased
        · exact hreleased
  · rfl
  · rfl

theorem State.actAtRelock_within (s : State) (w : SyncWord) : s.ActsWithin (s.actAtRelock w) := by
  unfold State.actAtRelock
  split
  · exact .refl s
  · exact s.takeNominate_within _ w
  · exact .refl s
  · exact s.takeAbandon_within _

theorem State.relock_pending (s : State) (w : SyncWord) : (s.relock w).pending = s.pending := by
  have hcompared : (s.lockCompared w).pending = s.pending := State.compareAtRelock_pending (s.lockOpened w) s.csu.sync w
  have hacted := ((s.lockCompared w).evaluate.actAtRelock_within w).pending
  rw [s.relock_eq w]
  exact (State.closeBoundary_pending _).trans (hacted.trans ((State.evaluate_pending _).trans hcompared))

theorem State.loseSync_pending (s : State) : s.loseSync.pending = s.pending := by
  rw [s.loseSync_eq]
  refine (State.closeBoundary_pending _).trans ?_
  show s.lossOpened.holdThroughLoss.pending = s.pending
  unfold State.holdThroughLoss
  split
  · rfl
  · split
    · split <;> rfl
    · exact (s.lossOpened.executeAbandon_within _).pending

theorem State.endBurst_pending (s : State) (b : Burst) : (s.endBurst b).pending = s.pending := by
  match hk : b.kind with
  | .fetch t false =>
    rw [s.endBurst_fetch hk, State.grant_pending, State.fetchBurstDone_eq]
    rfl
  | .fetch t true =>
    rw [s.endBurst_stale hk]
    rfl
  | .load =>
    rw [s.endBurst_load hk, State.grant_pending, ((s.freed b).loadBurstDone_eq b).1]
    rfl

/-- No row moves the queue. -/
theorem State.Becomes.pending (h : s.Becomes t) : t.pending = s.pending := by
  cases h with
  | quiet _ hqueue => exact hqueue
  | command code broadcast _ _ _ hc hqueue => exact (State.finish_pending _ _ _).trans (hc.pending.trans hqueue)
  | running =>
    rw [((s.enterPhase .running).returnResult_eq .ok .empty).1]
    rfl
  | masterBoundary line => exact s.masterBoundary_pending line
  | frameTriggers n f => exact (s.atLeast n).makeAllDue_pending _
  | takesWord w => exact s.takeWord_pending w
  | relocks w => exact (s.countWord w).relock_pending w
  | losesSync n => exact (s.atLeast n).loseSync_pending
  | freeRuns n f => exact State.closeBoundary_pending _
  | prepares =>
    unfold State.completePreparation
    split <;> rfl
  | line t n => rw [State.line_eq]
  | burst b => exact s.endBurst_pending b
  | cueEdge cue level seen n => exact State.makeAllDue_pending _ _
  | _ => rfl

end

/-- Settles O2: every row has one of the outcomes listed, none of which moves the queue; a burst's end alone tests the store. -/
theorem everyRowCompletes : Obligations.EveryRowCompletes := by
  unfold Obligations.EveryRowCompletes
  intro c s
  by_cases hc : c = .burstEnd ∨ c = .uploadComplete
  · have h := exec_settles s c
    cases hx : exec c s with
    | next t => exact .inl ⟨t, rfl, State.Becomes.pending (by rw [hx] at h; exact h)⟩
    | refused r => rw [hx] at h; exact h.elim
    | fault f =>
      rw [hx] at h
      obtain ⟨b, hb, hinside, rfl⟩ := h
      exact .inr ⟨hc, b, hb, Nat.lt_of_not_le (of_decide_eq_false hinside), rfl⟩
  · have h := exec_answers s c (fun he => hc (.inl he)) fun he => hc (.inr he)
    cases hx : exec c s with
    | next t => exact .inl ⟨t, rfl, State.Becomes.pending (by rw [hx] at h; exact h)⟩
    | refused r => rw [hx] at h; exact h.elim
    | fault f => rw [hx] at h; exact h.elim

end Sys2Proof.Machine

/-! SUPPORT. START: the tests of R9, what a START that passes replaces, its completion, and the re-test of RDY as a row's end. -/

namespace Sys2Proof.Machine

/-! ### The re-test at a row's end (R101) -/

section
variable {s t u : State}

theorem State.SameChain.symm (h : s.SameChain t) : t.SameChain s :=
  ⟨h.phase.symm, h.held.symm, h.sdir.symm, h.ptab.symm, fun g => (h.state g).symm, h.due.symm, h.cvb.symm, h.sync.symm,
    h.nomination.symm, h.given.symm, h.hold.symm, h.released.symm, h.role.symm⟩

/-- A row that ends in a re-test of a part whose chain state it has not moved. -/
theorem State.retestedAs_of_retest (hcsu : u.csu = s.csu) (hgroups : s.GroupsInv → u.GroupsInv) (k : u.retestRdy.SameChain t)
    (hcsu' : t.csu = u.retestRdy.csu) (hnow : t.now = u.now) (hrate : t.rateNow = u.rateNow) : s.RetestedAs t := by
  have hreleased : t.csu.rdyReleased = u.rdyConditions := by rw [hcsu']; rfl
  have hfresh : t.WordIsFresh ↔ u.WordIsFresh := by
    unfold State.WordIsFresh
    rw [k.role, hcsu', hnow, hrate]
    exact Iff.rfl
  refine ⟨fun hg => ?_, ?_⟩
  · rw [hreleased, (hgroups hg).rdyConditions_iff, hfresh]
    exact and_congr ⟨fun h => State.ReadyToCut.congr (s := u.retestRdy) h k, fun h => State.ReadyToCut.congr (t := u.retestRdy) h k.symm⟩
      Iff.rfl
  · rw [hreleased, hcsu', State.retestRdy_csu, hcsu]

end

/-! ### The tests of R9 -/

section
variable {s : State} {t : TileId}

theorem spanFits_iff {origin : Int} {size : Nat} : spanFits origin size = true ↔ onWall origin size := by
  simp only [spanFits, Bool.and_eq_true, decide_eq_true_eq]
  exact Iff.rfl

theorem State.duplicated_iff : s.duplicated t = true ↔ s.SharesPlace t := by
  simp [State.duplicated, State.SharesPlace, and_assoc]

theorem State.geometryReason_eq : s.geometryReason t
    = if (s.tiles.get t).placed = false then none
      else if spanFits (s.tileOrigin t).1 s.geo.panelW = false then some .spanX
      else if spanFits (s.tileOrigin t).2 s.geo.panelH = false then some .spanY
      else if s.duplicated t then some .duplicate
      else none := rfl

theorem State.geometryReason_eq_none : s.geometryReason t = none ↔ s.TileFits t := by
  unfold State.TileFits
  rw [State.geometryReason_eq, ← State.duplicated_iff, ← spanFits_iff, ← spanFits_iff]
  split_ifs <;> simp_all

theorem State.geometryReason_eq_some {reason : GeometryReason} (h : s.Offends t reason) : s.geometryReason t = some reason := by
  obtain ⟨hplaced, htest⟩ := h
  rw [State.geometryReason_eq, if_neg (by rw [hplaced]; exact nofun)]
  cases reason with
  | spanX => rw [if_pos (Bool.eq_false_iff.2 (mt spanFits_iff.1 htest))]
  | spanY =>
    obtain ⟨hfits, hfails⟩ := htest
    rw [if_neg (by rw [spanFits_iff.2 hfits]; exact nofun), if_pos (Bool.eq_false_iff.2 (mt spanFits_iff.1 hfails))]
  | duplicate =>
    obtain ⟨hfitsX, hfitsY, hshares⟩ := htest
    rw [if_neg (by rw [spanFits_iff.2 hfitsX]; exact nofun), if_neg (by rw [spanFits_iff.2 hfitsY]; exact nofun),
      if_pos (State.duplicated_iff.2 hshares)]

/-- The first tile of the part, lowest first, to which a test gives an answer. -/
theorem findSome_finRange {α : Type} {n : Nat} {f : Fin n → Option α} {i : Fin n} {a : α} (hbefore : ∀ j, j.val < i.val → f j = none)
    (hi : f i = some a) : (List.finRange n).findSome? f = some a := by
  obtain ⟨before, after, hsplit⟩ := List.append_of_mem (List.mem_finRange i)
  have hlt : (List.finRange n).Pairwise (· < ·) := List.pairwise_lt_finRange n
  rw [hsplit, List.pairwise_append] at hlt
  obtain ⟨_, _, hlt⟩ := hlt
  rw [hsplit, List.findSome?_append, List.findSome?_eq_none_iff.2 fun j hj => hbefore j (hlt j hj i List.mem_cons_self),
    List.findSome?_cons, hi]
  rfl

theorem State.geometryFault_eq_some {reason : GeometryReason} (hbefore : ∀ u : TileId, u.val < t.val → s.TileFits u)
    (h : s.Offends t reason) : s.geometryFault = some (t, reason) :=
  findSome_finRange (fun u hu => by rw [State.geometryReason_eq_none.2 (hbefore u hu)]; rfl) (by
    rw [State.geometryReason_eq_some h]; rfl)

theorem State.geometryFault_eq_none (h : ∀ t, s.TileFits t) : s.geometryFault = none :=
  List.findSome?_eq_none_iff.2 fun t _ => by rw [State.geometryReason_eq_none.2 (h t)]; rfl

end

/-! ### START -/

section
variable {s : State}

theorem HeldGeometry.anyRect_iff {h : HeldGeometry} : h.anyRect = true ↔ ∃ t, h.rects.get t ≠ none := by
  simp only [HeldGeometry.anyRect, List.any_eq_true, Table.mem_rows, exists_exists_eq_and, Option.isSome_iff_ne_none]

theorem Cvb.begin_prep (held : HeldGeometry) (g : GroupId) (c : Cvb) :
    (c.begin held g).prep = if ∃ t, held.rects.get t ≠ none then .inFlight g else .complete g := by
  show (if held.anyRect = true then Prep.inFlight g else Prep.complete g) = _
  exact if_congr HeldGeometry.anyRect_iff rfl rfl

theorem State.geometryNow_rects (t : TileId) : s.geometryNow.rects.get t
    = if (s.tiles.get t).placed then some ⟨(s.tileOrigin t).1.toNat, (s.tileOrigin t).2.toNat, s.geo.panelW, s.geo.panelH⟩ else none :=
  Table.get_mapIdx _ _ _

theorem State.listsAtStart_active (t : TileId) :
    s.listsAtStart.active.get t = buildCoverage (s.geometryNow.rects.get t) (liveSet s.ptab) := by
  have hactive : s.listsAtStart.active = buildActive s.geometryNow s.ptab := by
    unfold State.listsAtStart Cvb.restart
    split <;> rfl
  rw [hactive, buildActive, Table.get_mapIdx]

/-- What a report of lists that become active adds (R116). -/
theorem State.reportAll_overcover {c : Cvb} (h : s.phase ≠ .starting) : (s.reportAll c.overcover).evb
    = match (List.finRange 16).filter fun i => 0 < (c.active.get i).excluded with
      | [] => s.evb
      | i :: more => s.evb.record (.overcover (more.length + 1) i (c.active.get i).excluded) := by
  rw [State.reportAll_evb, if_neg h]
  unfold Cvb.overcover Cvb.crowded
  cases (List.finRange 16).filter fun i => decide (0 < (c.active.get i).excluded) <;> rfl

/-- A START that passes its tests, out of RUNNING (R115, R183). -/
theorem State.beginStart_eq (h : s.phase ≠ .running) : s.beginStart = { s with
    held := s.geometryNow, cvb := s.listsAtStart
    evb := (State.reportAll s.listsAtStart.overcover s).evb, csu := { s.csu with rdyReleased := false } } := by
  refine (State.retestRdy_of_fail (State.rdyConditions_of_phase ?_)).trans rfl
  exact h

end

/-- Settles O15: the tests tile by tile, then the geometry and the lists from it; the phase at the completion. -/
theorem startTakesEffect : Obligations.StartTakesEffect := by
  unfold Obligations.StartTakesEffect
  refine ⟨fun s unit t reason ht hbefore hoff => ?refused, fun s unit ht hfits => ?started, fun s e he hjob => ?completed⟩
  case refused =>
    refine exec_replied (c := .start) ht (hop := fun bytes => ?_)
    have hfault : (s.takeFrame bytes).geometryFault = some (t, reason) := State.geometryFault_eq_some (s := s) hbefore hoff
    simp only [commandOp, opStart, hfault]
  case started =>
    have hphase : s.phase ≠ .running := fun hr => by
      obtain ⟨_, _, _, _, _, _, hrun⟩ := ht
      exact hrun hr (by simp)
    have hstarting : s.phase ≠ .starting := ht.1
    have hplaced : ∀ i, s.geometryNow.rects.get i ≠ none ↔ (s.tiles.get i).placed = true := fun i => by
      rw [State.geometryNow_rects]
      cases (s.tiles.get i).placed <;> simp
    refine ⟨_, exec_begins (c := .start) (t := { s with
        held := s.geometryNow, cvb := s.listsAtStart
        evb := (State.reportAll s.listsAtStart.overcover s).evb, csu := { s.csu with rdyReleased := false } })
      ht (HostCmd.payload_length_le nofun) (by simp [HostCmd.code]) fun bytes => ?_, rfl, rfl, State.geometryNow_rects,
      State.listsAtStart_active, State.reportAll_overcover hstarting, fun hp => ?_, fun g hg => ?_⟩
    · have hfault : (s.takeFrame bytes).geometryFault = none := State.geometryFault_eq_none (s := s) hfits
      simp only [commandOp, opStart, hfault]
      rw [State.beginStart_eq (s := s.takeFrame bytes) hphase]
      rfl
    · have hlists : s.listsAtStart = { s.cvb with active := buildActive s.geometryNow s.ptab } := by
        unfold State.listsAtStart Cvb.restart
        simp only [hp]
      show s.listsAtStart.prep = _ ∧ s.listsAtStart.shadow = _
      rw [hlists]
      exact ⟨hp, rfl⟩
    · have hlists : s.listsAtStart = Cvb.begin s.geometryNow g { s.cvb with active := buildActive s.geometryNow s.ptab } := by
        unfold State.listsAtStart Cvb.restart
        cases hp : s.cvb.prep with
        | none => rw [hp] at hg; cases hg
        | inFlight k => rw [hp] at hg; cases hg; rfl
        | complete k => rw [hp] at hg; cases hg; rfl
      show s.listsAtStart.shadow = _ ∧ s.listsAtStart.prep = _
      rw [hlists]
      refine ⟨rfl, ?_⟩
      rw [Cvb.begin_prep]
      exact if_congr (exists_congr hplaced) rfl rfl
  case completed =>
    have hrow : exec .startComplete s = .next ((s.enterPhase .running).returnResult .ok .empty) := by
      show execStartComplete s = _
      unfold execStartComplete
      simp only [he, Option.map_some, hjob]
    have hreturned : (s.enterPhase .running).returnResult .ok .empty
        = (s.enterPhase .running).deliver e.code e.broadcast e.overrun .ok .empty := by
      have he' : (s.enterPhase .running).clc.executing = some e := he
      unfold State.returnResult
      rw [he']
    have hgroups : s.GroupsInv → State.GroupsInv { s with phase := .running } := fun h => h.congr ⟨fun _ => rfl, rfl, rfl, rfl, rfl⟩
    refine ⟨_, hrow.trans (congrArg _ hreturned), rfl, ?_⟩
    exact State.retestedAs_of_retest (u := { s with phase := .running }) rfl hgroups (State.sameChain_of_eq rfl rfl rfl) rfl rfl rfl

end Sys2Proof.Machine

/-! SUPPORT. Triggers, RDY's conditions and a slave's own timing. -/

namespace Sys2Proof.Machine

/-! ### Triggers (R71, R72) -/

section
variable {s : State}

theorem GroupRec.watches_iff {r : GroupRec} {c : CueId} {high : Bool} : r.watches c (directionOf high) = true
    ↔ r.state = .armed ∧ ∃ e, r.trigger = .cue c e ∧ (if high then e ≠ .falling else e = .falling ∨ e = .any) := by
  unfold GroupRec.watches
  split
  · next d edge hstate htrigger =>
    rw [hstate, htrigger, Bool.and_eq_true, decide_eq_true_eq]
    have hfired : edge.firedBy (directionOf high) = true ↔ if high then edge ≠ .falling else edge = .falling ∨ edge = .any := by
      cases edge <;> cases high <;> decide
    constructor
    · rintro ⟨rfl, h⟩
      exact ⟨rfl, edge, rfl, hfired.1 h⟩
    · rintro ⟨_, e, he, h⟩
      cases he
      exact ⟨rfl, hfired.2 h⟩
  · next hother => exact ⟨nofun, fun ⟨hstate, e, he, _⟩ => absurd he (hother c e hstate)⟩

theorem State.mem_cueTriggered {c : CueId} {high : Bool} {g : GroupId} : g ∈ s.cueTriggered c (directionOf high)
    ↔ s.clc.straps.role = .master ∧ (s.groups.get g).state = .armed
      ∧ ∃ e, (s.groups.get g).trigger = .cue c e ∧ (if high then e ≠ .falling else e = .falling ∨ e = .any) := by
  unfold State.cueTriggered
  split
  · next hrole => simp only [List.mem_filter, List.mem_finRange, true_and, GroupRec.watches_iff, hrole]
  · next hrole => exact ⟨nofun, fun h => absurd h.1 hrole⟩

theorem State.mem_frameTriggered {f : Frame} {g : GroupId} :
    g ∈ s.frameTriggered f ↔ (s.groups.get g).state = .armed ∧ (s.groups.get g).trigger = .frame f := by
  simp [State.frameTriggered]

theorem finRange_filter_ascending {n : Nat} (p : Fin n → Bool) :
    ((List.finRange n).filter p).Pairwise fun g h => g.val < h.val := (List.pairwise_lt_finRange n).filter p

theorem State.cueTriggered_ascending (c : CueId) (d : Direction) : (s.cueTriggered c d).Pairwise fun g h => g.val < h.val := by
  unfold State.cueTriggered
  split
  · exact finRange_filter_ascending _
  · exact .nil

end

/-- Settles O32: an edge fires the groups that watch it, a boundary those whose target it is. -/
theorem triggersFire : Obligations.TriggersFire := by
  unfold Obligations.TriggersFire
  refine ⟨⟨fun s c level held h => ?stays, fun s c level high held hheld hhigh hcue => ?fires⟩, fun s hrole htiming => ?frame⟩
  case stays =>
    show execCueEdge c level held s = _
    unfold execCueEdge
    simp only
    rcases h with h | h | h
    · rw [h]
      rfl
    · cases s.cbi.cue.get c with
      | none => rfl
      | some settled => exact if_neg fun ⟨hheld, _⟩ => absurd hheld (Nat.not_le.2 h)
    · rw [h]
      exact if_neg fun ⟨_, hne⟩ => hne rfl
  case fires =>
    have hfires : settleMicros ≤ held ∧ (level ^^ s.cbi.inversion.get c) ≠ !high := by
      refine ⟨hheld, ?_⟩
      rw [hhigh]
      cases level <;> cases s.cbi.inversion.get c <;> decide
    have hrow : exec (.cueEdge c level held) s
        = .next (((s.setCuePin c level).atLeast (s.cbi.cueSampledAt + settleTicks)).takeCueEdge c high) := by
      show execCueEdge c level held s = _
      unfold execCueEdge
      simp only [hcue]
      rw [if_pos hfires, hhigh]
    refine ⟨_, s.cueTriggered c (directionOf high), hrow, ?_, s.cueTriggered_ascending c _, fun g => s.mem_cueTriggered, fun g hg => ?_,
      fun g hg => ?_⟩
    · unfold State.takeCueEdge
      rw [State.makeAllDue_eq]
      rfl
    · exact (State.makeAllDue_get _ _ g).trans (if_pos hg)
    · exact (State.makeAllDue_get _ _ g).trans (if_neg hg)
  case frame =>
    have hrow : exec .frameTrigger s = .next ((s.atLeast s.nextBoundary).fireFrameTriggers (s.csu.frame + 1)) := by
      show execFrameTrigger s = _
      unfold execFrameTrigger
      rw [if_pos (s.makesBoundaries_iff.2 ⟨hrole, htiming⟩)]
    refine ⟨_, s.frameTriggered (s.csu.frame + 1), hrow, ?_, finRange_filter_ascending _, fun g => State.mem_frameTriggered, fun g hg => ?_,
      fun g hg => ?_⟩
    · unfold State.fireFrameTriggers
      rw [State.makeAllDue_eq]
      rfl
    · exact (State.makeAllDue_get _ _ g).trans (if_pos hg)
    · exact (State.makeAllDue_get _ _ g).trans (if_neg hg)

/-! ### RDY (R100, R101) and the preparation (R120) -/

/-- Settles O37: the re-test is the conditions of R100, one by one. -/
theorem readinessFollowsConditions : Obligations.ReadinessFollowsConditions := by
  unfold Obligations.ReadinessFollowsConditions
  refine ⟨fun s hg => ⟨hg.retest_iff, rfl⟩, fun s g hprep => ?_, fun s hnone => ?_⟩
  · have hrow : s.completePreparation = State.retestRdy { s with
        cvb := { s.cvb with prep := .complete g, shadow := buildShadow s.held s.ptab g } } := by
      unfold State.completePreparation
      rw [hprep]
    have hshadow : buildShadow s.held s.ptab g
        = Table.ofFn fun i => (s.held.rects.get i).map fun r => buildCoverage (some r) (postCutView s.ptab g) :=
      Table.mapIdx_eq_ofFn _ _
    refine ⟨_, congrArg Host.Outcome.next hrow, ?_, fun hg => ?_⟩
    · rw [hshadow]
      rfl
    · have hg' : State.GroupsInv { s with cvb := { s.cvb with prep := .complete g, shadow := buildShadow s.held s.ptab g } } :=
        hg.congr ⟨fun _ => rfl, rfl, rfl, rfl, rfl⟩
      exact hg'.retest_iff
  · show Host.Outcome.next s.completePreparation = _
    unfold State.completePreparation
    split
    · next g hg => exact absurd hg (hnone g)
    · rfl

/-! ### A slave's own timing (R100 to R102) -/

section
variable {s : State}

theorem State.rdyConditions_of_stale (hrole : s.clc.straps.role = .slave) {since : Nat} (htimer : s.csu.lossTimer = some since)
    (hstale : 2 * s.rateNow.period < s.now - since) : s.rdyConditions = false := by
  have hfresh : s.wordFresh = false := by
    unfold State.wordFresh
    rw [hrole, htimer]
    exact decide_eq_false (Nat.not_le.2 hstale)
  unfold State.rdyConditions
  rw [hfresh, Bool.and_false, Bool.false_and, Bool.false_and]

theorem State.rdyConditions_of_unlocked (h : s.csu.sync ≠ .locked) : s.rdyConditions = false := by
  unfold State.rdyConditions
  rw [decide_eq_false h, Bool.and_false, Bool.false_and, Bool.false_and, Bool.false_and]

end

/-! ### What a boundary's end reports -/

section
variable (s : State)

/-- What the event block holds after the end of a boundary: the changes of the ports, then FRAME_TICK (R151, R188). -/
theorem State.closeBoundary_evb : s.closeBoundary.evb = (s.stepPorts.report (.frameTick s.csu.frame)).evb := by
  have h := State.foldl_requestLine_eq (List.finRange 16) 0 ((s.stepPorts.report (.frameTick s.csu.frame)).openFrames s.ports)
  show (((s.stepPorts.report (.frameTick s.csu.frame)).openFrames s.ports).requestFirstLines).evb = _
  unfold State.requestFirstLines
  rw [h]
  rfl

theorem FlagRec.after_detail (d : Detail) (r : Option FlagRec) : (FlagRec.after d r).detail = d := by
  cases r <;> rfl

/-- A report taken is its flag's detail from then on (R188). -/
theorem State.report_get {d : Detail} (h : s.phase ≠ .starting) :
    ∃ r, (s.report d).evb.flags.get d.flag = some r ∧ r.detail = d := by
  refine ⟨_, ?_, FlagRec.after_detail d (s.evb.flags.get d.flag)⟩
  rw [State.report_evb, if_neg h, Evb.record_get]

theorem State.report_get_ne {d : Detail} {i : Fin 16} (h : i ≠ d.flag) : (s.report d).evb.flags.get i = s.evb.flags.get i := by
  rw [State.report_evb]
  split
  · rfl
  · exact Evb.record_get_ne _ h

theorem State.closeBoundary_tick (h : s.phase ≠ .starting) :
    ∃ r, s.closeBoundary.evb.flags.get 0 = some r ∧ r.detail = .frameTick s.csu.frame := by
  rw [s.closeBoundary_evb]
  exact State.report_get s.stepPorts (d := .frameTick s.csu.frame) h

/-- The reports of a port that takes a boundary are changes of its state (R151). -/
theorem changesThrough_flag {t : TileId} {f : Frame} {news : List PortState} {d : Detail} :
    ∀ {old : PortState}, d ∈ changesThrough t f old news → d.flag = 6 := by
  induction news with
  | nil => exact nofun
  | cons new news ih =>
    intro old hd
    rcases List.mem_append.1 hd with hd | hd
    · unfold changeOf at hd
      split at hd
      · cases hd
      · cases List.mem_singleton.1 hd
        rfl
    · exact ih hd

/-- The end of a boundary leaves every flag but FRAME_TICK and TILE_CHANGE (R151, R188). -/
theorem State.closeBoundary_get {i : Fin 16} (h0 : i ≠ 0) (h6 : i ≠ 6) : s.closeBoundary.evb.flags.get i = s.evb.flags.get i := by
  rw [s.closeBoundary_evb]
  refine (State.report_get_ne _ h0).trans ?_
  refine State.reportAll_get_of_ne _ _ fun d hd => ?_
  obtain ⟨t, ht⟩ := State.mem_tileReports.1 hd
  rw [changesThrough_flag ht]
  exact h6.symm

end

/-- Settles O38: no word is fresh two periods after the last; out of lock RDY stays held. -/
theorem slaveOwnTiming : Obligations.SlaveOwnTiming := by
  unfold Obligations.SlaveOwnTiming
  refine ⟨fun s since hrole hsync htimer => ?overdue, fun s hrole hsync htiming => ?freeRun⟩
  case overdue =>
    have hrow : exec .wordOverdue s = .next (s.atLeast (since + 2 * s.rateNow.period + 1)).retestRdy := by
      show execWordOverdue s = _
      unfold execWordOverdue
      simp only [hrole, hsync, htimer]
    have hstale : 2 * s.rateNow.period < max s.now (since + 2 * s.rateNow.period + 1) - since := by
      have := Nat.le_max_right s.now (since + 2 * s.rateNow.period + 1)
      omega
    exact hrow.trans (congrArg _ (State.retestRdy_of_fail (State.rdyConditions_of_stale
      (s := s.atLeast (since + 2 * s.rateNow.period + 1)) hrole htimer hstale)))
  case freeRun =>
    have hrow : exec .freeRunBoundary s
        = .next (((s.atLeast s.nextBoundary).beginFrame (s.csu.frame + 1)).retestRdy).closeBoundary := by
      show execFreeRunBoundary s = _
      unfold execFreeRunBoundary
      rw [if_pos ⟨hrole, hsync, htiming⟩]
    have hheld : (((s.atLeast s.nextBoundary).beginFrame (s.csu.frame + 1)).retestRdy) = { s with
        now := max s.now (s.csu.boundaryAt + Config.ticksPerSecond / s.rateNow.hertz), bgNow := s.bg, rateNow := s.rate
        csu := { s.csu with
          frame := s.csu.frame + 1
          boundaryAt := max s.now (s.csu.boundaryAt + Config.ticksPerSecond / s.rateNow.hertz), rdyReleased := false } } :=
      State.retestRdy_of_fail (State.rdyConditions_of_unlocked hsync)
    rw [hheld] at hrow
    exact ⟨_, hrow, rfl, fun hphase => State.closeBoundary_tick _ hphase, by rw [State.closeBoundary_eq]⟩

end Sys2Proof.Machine

/-! SUPPORT. A cut and an abandon, field by field. -/

namespace Sys2Proof.Machine

theorem Table.modify_eq_set {α : Type} {n : Nat} (t : Table α n) (i : Fin n) (f : α → α) : t.modify i f = t.set i (f (t.get i)) :=
  Table.ext_get fun j => by
    rw [Table.get_modify, Table.get_set]
    split
    · next h => rw [h]
    · rfl

/-! ### Records (R79 to R82) -/

/-- A record of another group stays (R79). -/
theorem Placement.cutAt_of_other {g : GroupId} {r : Placement} (f : Frame) (h : r.group ≠ some g) : r.cutAt g f = (r, []) := by
  cases r with
  | free => rfl
  | fading k v a b c => rfl
  | staged k v => exact if_neg fun he => h (congrArg some he)
  | live k v a b p => exact if_neg fun he => h (congrArg some he)

section
variable {g : GroupId} {v new : Values} {a b f : Frame}

theorem Placement.cutAt_staged : ((Placement.staged g v).cutAt g f).1 = .live g v f f none := by
  simp only [Placement.cutAt, if_true]

theorem Placement.cutAt_live : ((Placement.live g v a b none).cutAt g f).1 = .live g v a b none := by
  simp only [Placement.cutAt, if_true]

theorem Placement.cutAt_restart : ((Placement.live g v a b (some (.replace new true))).cutAt g f).1 = .live g new f f none := by
  simp only [Placement.cutAt, if_true]

theorem Placement.cutAt_replace (h : ∀ e, new.endAge = some e → (f - a).toNat < e) :
    ((Placement.live g v a b (some (.replace new false))).cutAt g f).1 = .live g new a f none := by
  simp only [Placement.cutAt, if_true]
  cases he : new.endAge with
  | none => rfl
  | some e =>
    have hlt : ¬ e ≤ framesSince f a := Nat.not_le.2 (h e he)
    simp only [decide_eq_true_eq, if_neg hlt]

theorem Placement.cutAt_replace_ended {e : Nat} (he : new.endAge = some e) (h : e ≤ (f - a).toNat) :
    ((Placement.live g v a b (some (.replace new false))).cutAt g f).1
      = if new.fadeOut = 0 then .free else .fading g new a f f := by
  have hle : e ≤ framesSince f a := h
  simp only [Placement.cutAt, if_true, he, decide_eq_true_eq, if_pos hle]
  split <;> rfl

theorem Placement.cutAt_retire : ((Placement.live g v a b (some .retire)).cutAt g f).1
    = if v.fadeOut = 0 then .free else .fading g v a b f := by
  simp only [Placement.cutAt, if_true]
  split <;> rfl

end

/-! ### The chain state (R83, R85, R107) -/

section
variable {s : State} {g : GroupId} {f : Frame}

theorem State.executeCut_get (i : PlacementId) : (s.executeCut g f).ptab.get i = ((s.ptab.get i).cutAt g f).1 := s.changeRecords_get _ i

theorem State.settleHold_eq (s : State) : s.settleHold = { s with
    csu := if s.heldGroup = none then { s.csu with readinessGiven := false, desyncHold := none } else s.csu } := rfl

theorem State.settleHold_eq_csu (s : State) : s.settleHold = { s with csu := s.settleHold.csu } := rfl

/-- Where no other group is held, none is after `g` has become IDLE. -/
theorem State.heldGroup_idled {t : State} (hstate : ∀ k, t.groupState k = if g = k then .idle else s.groupState k) :
    t.heldGroup = none ↔ ∀ h, h ≠ g → ¬ (s.groupState h).Locks := by
  rw [State.heldGroup_eq_none]
  refine forall_congr' fun k => ?_
  rw [hstate]
  split
  · next hk => exact ⟨fun _ hne => absurd hk.symm hne, fun _ => GroupState.not_locks_idle⟩
  · next hk => exact ⟨fun h _ => h, fun h => h fun he => hk he.symm⟩

theorem State.settleHold_idled {t : State} (hstate : ∀ k, t.groupState k = if g = k then .idle else s.groupState k) :
    t.settleHold.csu = if ∃ h, h ≠ g ∧ (s.groupState h).holdsRecords = true then t.csu
      else { t.csu with readinessGiven := false, desyncHold := none } := by
  have hheld : t.heldGroup = none ↔ ¬ ∃ h, h ≠ g ∧ (s.groupState h).holdsRecords = true := by
    rw [State.heldGroup_idled hstate]
    simp only [GroupState.holdsRecords_iff, not_exists, not_and]
  rw [State.settleHold_eq, if_congr hheld rfl rfl, ite_not]

theorem State.cutRecords_groupState (k : GroupId) :
    (s.cutRecords g f).groupState k = if g = k then .idle else s.groupState k := by
  show ((s.groups.modify g (GroupRec.afterCut f)).get k).state = _
  rw [Table.get_modify]
  split <;> rfl

/-- The chain state after a cut (R83). -/
theorem State.executeCut_csu_eq : (s.executeCut g f).csu
    = if ∃ h, h ≠ g ∧ (s.groupState h).holdsRecords = true then
        { s.csu with cutSequence := s.csu.cutSequence + 1, lastCut := some (g, f) }
      else { s.csu with cutSequence := s.csu.cutSequence + 1, lastCut := some (g, f), readinessGiven := false, desyncHold := none } := by
  unfold State.executeCut
  rw [State.settleHold_idled (s := s) (g := g) fun k => by
    simp only [State.groupState, State.activate, State.reportAll_groups, State.report_groups]
    exact State.cutRecords_groupState k]
  simp only [State.activate, State.reportAll_csu, State.report_csu]
  rfl

/-- The groups after a cut (R83). -/
theorem State.executeCut_groups_eq : (s.executeCut g f).groups = s.groups.set g { s.groups.get g with
    state := .idle, lastCutFrame := some f, cuts := (s.groups.get g).cuts + 1 } := Table.modify_eq_set _ _ _

/-- The event block after a cut (R83, R116). -/
theorem State.executeCut_evb_eq : (s.executeCut g f).evb
    = match (List.finRange 16).filter fun u => decide (0 < ((s.executeCut g f).cvb.active.get u).excluded) with
      | [] => s.told (.cutDone g (s.csu.cutSequence + 1) f)
      | u :: more => State.told { s with evb := s.told (.cutDone g (s.csu.cutSequence + 1) f) }
          (.overcover (more.length + 1) u ((s.executeCut g f).cvb.active.get u).excluded) := by
  have hevb : (s.executeCut g f).evb = (State.reportAll (s.listsAfterCut g f).overcover
      { s with evb := s.told (.cutDone g (s.csu.cutSequence + 1) f) }).evb := rfl
  have hcvb : (s.executeCut g f).cvb = s.listsAfterCut g f := rfl
  rw [hevb, hcvb, State.reportAll_evb]
  unfold Cvb.overcover Cvb.crowded State.told
  cases (List.finRange 16).filter fun u => decide (0 < ((s.listsAfterCut g f).active.get u).excluded) with
  | nil => by_cases h : s.phase = .starting <;> simp [h]
  | cons u more => by_cases h : s.phase = .starting <;> simp [h]

/-- CUT_DONE is its flag's detail after a cut: OVERCOVER is of another flag (R83). -/
theorem State.executeCut_told (h : s.phase ≠ .starting) :
    ∃ r, (s.executeCut g f).evb.flags.get 1 = some r ∧ r.detail = .cutDone g (s.csu.cutSequence + 1) f := by
  refine ⟨_, ?_, FlagRec.after_detail (.cutDone g (s.csu.cutSequence + 1) f) (s.evb.flags.get 1)⟩
  rw [State.executeCut_evb_eq]
  unfold State.told
  simp only [if_neg h]
  split
  · exact Evb.record_get _ _
  · exact (Evb.record_get_ne _ (show (1 : Fin 16) ≠ 9 by decide)).trans (Evb.record_get _ _)

/-- An abandon, whole (R85). -/
theorem State.executeAbandon_eq_whole : s.executeAbandon g = { s with
    groups := s.groups.set g { s.groups.get g with state := .idle, abandons := (s.groups.get g).abandons + 1 }
    cvb := if s.cvb.prep = .inFlight g ∨ s.cvb.prep = .complete g then ⟨s.cvb.active, Table.replicate 16 none, .none⟩ else s.cvb
    evb := s.told (.commitAbandoned g s.csu.frame)
    csu := if ∃ h, h ≠ g ∧ (s.groupState h).holdsRecords = true then s.csu
      else { s.csu with readinessGiven := false, desyncHold := none } } := by
  have hprep : s.cvb.prep.group = some g ↔ s.cvb.prep = .inFlight g ∨ s.cvb.prep = .complete g := by
    cases s.cvb.prep <;> simp [Prep.group]
  have hcsu := State.settleHold_idled (s := s) (g := g) (t := State.report (.commitAbandoned g s.csu.frame) { s with
      groups := s.groups.modify g GroupRec.afterAbandon, cvb := s.cvb.dropFor g }) fun k => by
    show ((s.groups.modify g GroupRec.afterAbandon).get k).state = _
    rw [Table.get_modify]
    split <;> rfl
  unfold State.executeAbandon
  rw [State.settleHold_eq_csu, hcsu, Table.modify_eq_set]
  unfold Cvb.dropFor
  rw [if_congr hprep rfl rfl]
  rfl

end

/-! ### The coverage lists of a cut (R84) -/

section
variable {s : State} {g : GroupId} {f : Frame}

theorem Cvb.without_shadow_none {c : Cvb} {removed : List PlacementId} (h : c.shadow = Table.replicate 16 none) :
    (c.without removed).shadow = Table.replicate 16 none :=
  Table.ext_get fun t => by simp only [Cvb.without, Table.get_mapIdx, h, Table.get_replicate, Option.map_none]

/-- A list built from the records a cut leaves names none of those it made FREE. -/
theorem State.buildActive_without (u : TileId) :
    ((buildActive s.held (s.cutRecords g f).ptab).get u).without (s.removalsOf fun _ r => r.cutAt g f)
      = buildCoverage (s.held.rects.get u) (liveSet (s.executeCut g f).ptab) := by
  have hbuilt : (buildActive s.held (s.cutRecords g f).ptab).get u = buildCoverage (s.held.rects.get u) (liveSet (s.executeCut g f).ptab) :=
    Table.get_mapIdx _ _ _
  have hnames := (buildActive_fits s.held (s.cutRecords g f).ptab u).names.1
  have hall : ∀ i ∈ ((buildActive s.held (s.cutRecords g f).ptab).get u).ids,
      (!(s.removalsOf fun _ r => r.cutAt g f).contains i) = true := fun i hi => by
    obtain ⟨v, _, hv, _⟩ := hnames i hi
    have hused : (s.executeCut g f).ptab.get i ≠ .free := fun hf => by
      have hf' : (s.cutRecords g f).ptab.get i = .free := hf
      rw [hf'] at hv
      cases hv
    have hkept : i ∉ s.removalsOf fun _ r => r.cutAt g f := fun hm => by
      obtain ⟨_, hfree⟩ := State.mem_removalsOf.1 hm
      rw [State.executeCut_get] at hused
      exact hused hfree
    simpa using hkept
  rw [← hbuilt]
  unfold Coverage.without
  rw [List.filter_eq_self.2 hall]

/-- The ids kept from a list by a cut: the others became FREE (R84, R59). -/
theorem State.without_cut (c : Coverage) : c.without (s.removalsOf fun _ r => r.cutAt g f)
    = ⟨c.ids.filter fun i => decide (s.ptab.get i = .free ∨ (s.executeCut g f).ptab.get i ≠ .free), c.excluded⟩ := by
  unfold Coverage.without
  refine congrArg (Coverage.mk · c.excluded) (List.filter_congr fun i _ => ?_)
  have hmem : i ∈ (s.removalsOf fun _ r => r.cutAt g f) ↔ ¬ (s.ptab.get i = .free ∨ (s.executeCut g f).ptab.get i ≠ .free) := by
    rw [State.mem_removalsOf, State.executeCut_get, not_or, not_not]
  rw [Bool.eq_iff_iff, Bool.not_eq_true', decide_eq_true_eq, List.contains_eq_mem, decide_eq_false_iff_not, hmem, not_not]

/-- The coverage builder at a cut, by the preparation held (R84, R122). -/
theorem State.executeCut_cvb_complete (h : s.cvb.prep = .complete g) : (s.executeCut g f).cvb = Cvb.without (s.removalsOf fun _ r => r.cutAt g f)
    { active := s.cvb.shadow.mapIdx fun _ l => l.getD ⟨[], 0⟩, shadow := Table.replicate 16 none, prep := .none } := by
  show Cvb.without _ (Cvb.cut _ _ _ _) = _
  unfold Cvb.cut
  simp only [h, if_true]

theorem State.executeCut_cvb_none (h : s.cvb.prep = .none) : (s.executeCut g f).cvb = Cvb.without (s.removalsOf fun _ r => r.cutAt g f)
    { s.cvb with active := buildActive s.held (s.cutRecords g f).ptab } := by
  show Cvb.without _ (Cvb.cut _ _ _ _) = _
  unfold Cvb.cut
  simp only [h]

theorem State.executeCut_cvb_inFlight (h : s.cvb.prep = .inFlight g) : (s.executeCut g f).cvb = Cvb.without (s.removalsOf fun _ r => r.cutAt g f)
    (Cvb.drop { s.cvb with active := buildActive s.held (s.cutRecords g f).ptab }) := by
  show Cvb.without _ (Cvb.cut _ _ _ _) = _
  unfold Cvb.cut
  simp only [h, if_true]

theorem State.executeCut_cvb_other {k : GroupId} (hk : k ≠ g) (h : s.cvb.prep = .inFlight k ∨ s.cvb.prep = .complete k) :
    (s.executeCut g f).cvb = Cvb.without (s.removalsOf fun _ r => r.cutAt g f)
      (Cvb.begin s.held k { s.cvb with active := buildActive s.held (s.cutRecords g f).ptab }) := by
  show Cvb.without _ (Cvb.cut _ _ _ _) = _
  unfold Cvb.cut
  rcases h with h | h <;> simp only [h, if_neg hk]

/-- But for a complete preparation of `g`, the active lists are built from what the cut leaves (R84). -/
theorem State.executeCut_active (h : s.cvb.prep ≠ .complete g) (u : TileId) :
    (s.executeCut g f).cvb.active.get u = buildCoverage (s.held.rects.get u) (liveSet (s.executeCut g f).ptab) := by
  have hactive : ∀ c : Cvb, c.active = buildActive s.held (s.cutRecords g f).ptab →
      (c.without (s.removalsOf fun _ r => r.cutAt g f)).active.get u
        = buildCoverage (s.held.rects.get u) (liveSet (s.executeCut g f).ptab) := fun c hc => by
    simp only [Cvb.without, Table.get_mapIdx, hc]
    exact State.buildActive_without u
  cases hp : s.cvb.prep with
  | none => rw [State.executeCut_cvb_none hp]; exact hactive _ rfl
  | inFlight k =>
    by_cases hk : k = g
    · rw [State.executeCut_cvb_inFlight (hk ▸ hp)]; exact hactive _ rfl
    · rw [State.executeCut_cvb_other hk (.inl hp)]; exact hactive _ rfl
  | complete k =>
    by_cases hk : k = g
    · exact absurd (hk ▸ hp) h
    · rw [State.executeCut_cvb_other hk (.inr hp)]; exact hactive _ rfl

end

/-- Settles O33: the records by the table of R80 to R82, the lists by the preparation held, the chain state by R83 and R85. -/
theorem cutsAndAbandons : Obligations.CutsAndAbandons := by
  unfold Obligations.CutsAndAbandons
  refine ⟨fun s g f => ?_, fun s g => State.executeAbandon_eq_whole⟩
  intro t
  have hget : ∀ i, t.ptab.get i = ((s.ptab.get i).cutAt g f).1 := fun i => State.executeCut_get i
  have hcsu : t.csu = _ := State.executeCut_csu_eq (s := s) (g := g) (f := f)
  refine ⟨fun i h => ?_, fun i v h => ?_, fun i v a b h => ?_, fun i v a b new h => ?_, fun i v a b new h => ⟨fun hrun => ?_, fun e he hle => ?_⟩,
    fun i v a b h => ?_, fun i v a b c h => ?_, fun hrefs i => ⟨?_, ?_⟩, State.executeCut_groups_eq, s.executeCut_eq g f, ?_,
    fun hnone => ?_, fun hphase => ?_, fun hp => ?complete, fun hp => ?noneOrInFlight, fun hp => ?inFlight, fun k hk hp => ?other,
    fun hp u => State.executeCut_active hp u, State.executeCut_evb_eq⟩
  · rw [hget, Placement.cutAt_of_other f h]
  · rw [hget, h, Placement.cutAt_staged]
  · rw [hget, h, Placement.cutAt_live]
  · rw [hget, h, Placement.cutAt_restart]
  · rw [hget, h, Placement.cutAt_replace hrun]
  · rw [hget, h, Placement.cutAt_replace_ended he hle]
  · rw [hget, h, Placement.cutAt_retire]
  · rw [hget, h]
    rfl
  · exact (s.executeCut_chained g f).surface i
  · exact (hrefs.chained (s.executeCut_chained g f)).1 i
  · rw [hcsu]
    split <;> rfl
  · have hfree : ¬ ∃ h, h ≠ g ∧ (s.groupState h).holdsRecords = true := fun ⟨h, hne, hholds⟩ =>
      hnone h hne (GroupState.holdsRecords_iff.1 hholds)
    rw [hcsu, if_neg hfree]
    exact ⟨rfl, rfl⟩
  · exact State.executeCut_told hphase
  case complete =>
    refine ⟨by rw [State.executeCut_cvb_complete hp]; rfl, by rw [State.executeCut_cvb_complete hp]; exact Cvb.without_shadow_none rfl,
      fun u => ?_⟩
    rw [State.executeCut_cvb_complete hp]
    simp only [Cvb.without, Table.get_mapIdx]
    cases s.cvb.shadow.get u with
    | none => rfl
    | some c => exact State.without_cut c
  case noneOrInFlight =>
    rcases hp with hp | hp
    · rw [State.executeCut_cvb_none hp]; exact hp
    · rw [State.executeCut_cvb_inFlight hp]; rfl
  case inFlight =>
    rw [State.executeCut_cvb_inFlight hp]
    exact Cvb.without_shadow_none rfl
  case other =>
    rw [State.executeCut_cvb_other hk hp]
    exact ⟨Cvb.without_shadow_none (c := Cvb.begin s.held k { s.cvb with active := buildActive s.held (s.cutRecords g f).ptab }) rfl,
      Cvb.begin_prep (c := { s.cvb with active := buildActive s.held (s.cutRecords g f).ptab }) _ _⟩

end Sys2Proof.Machine

/-! SUPPORT. Reports of one flag that fall together, the evaluation of a selection of records, and RecordsEnd. -/

namespace Sys2Proof.Machine

/-! ### Reports of one flag, one after another (R188) -/

section
variable {fl : Fin 16}

theorem FlagRec.after_repeats (d : Detail) (q : Option FlagRec) :
    (FlagRec.after d q).repeats = min 255 ((q.map FlagRec.repeats).getD 0 + 1) := by
  cases q <;> rfl

theorem FlagRec.after_mask (d : Detail) (q : Option FlagRec) (k : Fin 16) :
    (FlagRec.after d q).mask.getLsbD k.val = true ↔ d.maskBit.getLsbD k.val = true ∨ ∃ r, q = some r ∧ r.mask.getLsbD k.val = true := by
  cases q with
  | none => simp [FlagRec.after]
  | some r => simp [FlagRec.after, or_comm]

/-- What reports of one flag, of which there is one, leave of it: the detail is one of theirs, the count and the mask gather. -/
theorem Evb.get_foldl_record (e : Evb) (ds : List Detail) (hflag : ∀ d ∈ ds, d.flag = fl) (hne : ds ≠ []) :
    ∃ r, (ds.foldl (fun e d => e.record d) e).flags.get fl = some r ∧ r.detail ∈ ds
      ∧ r.repeats = min 255 (((e.flags.get fl).map FlagRec.repeats).getD 0 + ds.length)
      ∧ ∀ k : Fin 16, r.mask.getLsbD k.val = true ↔
          (∃ d ∈ ds, d.maskBit.getLsbD k.val = true) ∨ ∃ q, e.flags.get fl = some q ∧ q.mask.getLsbD k.val = true := by
  induction ds using List.reverseRecOn with
  | nil => exact absurd rfl hne
  | append_singleton ds d ih =>
    have hd : d.flag = fl := hflag d (by simp)
    rw [List.foldl_append]
    refine ⟨_, by rw [← hd]; exact Evb.record_get _ _, by simp [FlagRec.after_detail], ?_, fun k => ?_⟩
    · rw [FlagRec.after_repeats, hd, List.length_append, List.length_singleton]
      by_cases hds : ds = []
      · rw [hds]; rfl
      · obtain ⟨r, hr, _, hrepeats, _⟩ := ih (fun x hx => hflag x (by simp [hx])) hds
        rw [hr, Option.map_some, Option.getD_some, hrepeats]
        omega
    · rw [FlagRec.after_mask, hd]
      by_cases hds : ds = []
      · simp [hds]
      · obtain ⟨r, hr, _, _, hmask⟩ := ih (fun x hx => hflag x (by simp [hx])) hds
        simp only [hr, Option.some.injEq, exists_eq_left', hmask, List.mem_append, List.mem_singleton]
        constructor
        · rintro (h | ⟨x, hx, h⟩ | h)
          · exact .inl ⟨d, .inr rfl, h⟩
          · exact .inl ⟨x, .inl hx, h⟩
          · exact .inr h
        · rintro (⟨x, hx | rfl, h⟩ | h)
          · exact .inr (.inl ⟨x, hx, h⟩)
          · exact .inl h
          · exact .inr (.inr h)

theorem Evb.get_foldl_record_ne (e : Evb) (ds : List Detail) {n : Fin 16} (hflag : ∀ d ∈ ds, d.flag ≠ n) :
    (ds.foldl (fun e d => e.record d) e).flags.get n = e.flags.get n := by
  induction ds generalizing e with
  | nil => rfl
  | cons d ds ih =>
    rw [List.foldl_cons, ih _ fun x hx => hflag x (List.mem_cons_of_mem _ hx)]
    exact Evb.record_get_ne e (hflag d List.mem_cons_self).symm

theorem Evb.enables_foldl_record (e : Evb) (ds : List Detail) : (ds.foldl (fun e d => e.record d) e).enables = e.enables := by
  induction ds generalizing e with
  | nil => rfl
  | cons d ds ih => rw [List.foldl_cons, ih, Evb.record_enables]

end

/-! ### One record at a boundary (R54 to R56) -/

section
variable {g : GroupId} {v : Values} {a b f : Frame} {p : Option Pending}

theorem Placement.atEnd_live : (Placement.live g v a b p).atEnd f = true ↔ ∃ e, v.endAge = some e ∧ e ≤ (f - a).toNat := by
  unfold Placement.atEnd
  dsimp only
  cases v.endAge with
  | none => exact ⟨nofun, fun ⟨_, he, _⟩ => nomatch he⟩
  | some e =>
    simp only [Option.some.injEq, exists_eq_left']
    exact decide_eq_true_iff

theorem Placement.discardAt_eq_some {r : Placement} {k : SurfaceId} : r.discardAt f = some (g, k) ↔ ∃ v a b new restart e,
    r = .live g v a b (some (.replace new restart)) ∧ new.surface = k ∧ v.endAge = some e ∧ e ≤ (f - a).toNat := by
  constructor
  · intro h
    match r, h with
    | .live g' v a b (some (.replace new restart)), h =>
      simp only [Placement.discardAt] at h
      split at h
      · next hend =>
        cases h
        obtain ⟨e, he, hle⟩ := Placement.atEnd_live.1 hend
        exact ⟨v, a, b, new, restart, e, rfl, rfl, he, hle⟩
      · cases h
  · rintro ⟨v, a, b, new, restart, e, rfl, rfl, he, hle⟩
    exact if_pos (Placement.atEnd_live.2 ⟨e, he, hle⟩)

/-- The end frame: the frame of the end age, or the frame the values came in where that is later (R54). -/
theorem endFrame_eq {e : Nat} (he : v.endAge = some e) : endFrame v a b
    = if 1 ≤ (a + BitVec.ofNat 32 e - b).toNat ∧ (a + BitVec.ofNat 32 e - b).toNat ≤ 2147483647 then a + BitVec.ofNat 32 e else b := by
  unfold endFrame laterFrame frameAhead
  rw [he, Option.getD_some]
  refine if_congr ?_ rfl rfl
  rw [Bool.and_eq_true, decide_eq_true_eq, decide_eq_true_eq, Nat.lt_iff_le_pred (by decide)]

theorem Placement.evaluated_ends {e : Nat} (he : v.endAge = some e) (hle : e ≤ (f - a).toNat) :
    ((Placement.live g v a b p).evaluated f).1 = if v.fadeOut ≤ (f - endFrame v a b).toNat then .free else .fading g v a b (endFrame v a b) := by
  rw [Placement.evaluated_live f (Placement.atEnd_live.2 ⟨e, he, hle⟩)]
  split <;> next h => simp only [framesSince] at h; simp only [h, if_true, if_false]

theorem Placement.evaluated_fades {c : Frame} : ((Placement.fading g v a b c).evaluated f).1
    = if v.fadeOut ≤ (f - c).toNat then .free else .fading g v a b c := by
  rw [Placement.evaluated_fading]
  split <;> next h => simp only [framesSince] at h; simp only [h, if_true, if_false]

theorem Placement.evaluated_runs (h : ∀ e, v.endAge = some e → (f - a).toNat < e) :
    ((Placement.live g v a b p).evaluated f).1 = .live g v a b p := by
  rw [Placement.evaluated_running]
  rw [Placement.atEnd_live]
  rintro ⟨e, he, hle⟩
  exact absurd (h e he) (Nat.not_lt.2 hle)

end

/-! ### The selected records (R53, R59) -/

section
variable {s : State} {sel : Selection} {f : Frame}

theorem State.evaluateWhere_get (i : PlacementId) :
    (s.evaluateWhere sel f).ptab.get i = if sel i = true then ((s.ptab.get i).evaluated f).1 else s.ptab.get i := by
  refine (s.changeRecords_get _ i).trans ?_
  unfold evaluationOf
  split <;> rfl

theorem State.mem_discards {i : PlacementId} {g : GroupId} {k : SurfaceId} :
    (i, g, k) ∈ s.discards sel f ↔ sel i = true ∧ (s.ptab.get i).discardAt f = some (g, k) := by
  unfold State.discards
  rw [List.mem_filterMap]
  constructor
  · rintro ⟨j, _, hj⟩
    split at hj
    · next hsel =>
      obtain ⟨d, hd, heq⟩ := Option.map_eq_some_iff.1 hj
      cases heq
      exact ⟨hsel, hd⟩
    · cases hj
  · rintro ⟨hsel, hd⟩
    exact ⟨i, List.mem_finRange i, by rw [if_pos hsel, hd]; rfl⟩

/-- One record loses one pending REPLACE at most. -/
theorem State.discards_ids_nodup : ((s.discards sel f).map fun d => d.1).Nodup := by
  refine List.Nodup.sublist ?_ (List.nodup_finRange 128)
  unfold State.discards
  rw [List.map_filterMap]
  generalize List.finRange 128 = ids
  induction ids with
  | nil => exact List.Sublist.refl _
  | cons j ids ih =>
    rw [List.filterMap_cons]
    split
    · exact ih.cons j
    · next x hx =>
      have hj : x = j := by
        obtain ⟨y, hy, rfl⟩ := Option.map_eq_some_iff.1 hx
        split at hy
        · obtain ⟨d, _, rfl⟩ := Option.map_eq_some_iff.1 hy
          rfl
        · cases hy
      rw [hj]
      exact ih.cons_cons j

/-- A record freed by the evaluation is one of its removals. -/
theorem State.mem_removals {i : PlacementId} :
    i ∈ s.removalsOf (evaluationOf sel f) ↔ s.ptab.get i ≠ .free ∧ (s.evaluateWhere sel f).ptab.get i = .free := by
  rw [State.mem_removalsOf, show (s.evaluateWhere sel f).ptab.get i = _ from s.changeRecords_get (evaluationOf sel f) i]

/-- The preparation begins again: one in flight loses a record, or the NOMINATED group loses a pending REPLACE (R117, R118). -/
def State.BeginsAgain (sel : Selection) (f : Frame) (s : State) : Prop :=
  ((∃ i, s.ptab.get i ≠ .free ∧ (s.evaluateWhere sel f).ptab.get i = .free) ∧ ∃ g, s.cvb.prep = .inFlight g)
    ∨ ∃ i g k, (i, g, k) ∈ s.discards sel f ∧ s.nominatedGroup = some g

theorem Coverage.without_eq {P : PlacementId → Prop} [DecidablePred P] {removed : List PlacementId} (h : ∀ i, i ∈ removed ↔ P i) (c : Coverage) :
    c.without removed = ⟨c.ids.filter fun i => ¬ P i, c.excluded⟩ := by
  unfold Coverage.without
  refine congrArg (Coverage.mk · c.excluded) (List.filter_congr fun i _ => ?_)
  rw [Bool.eq_iff_iff, decide_eq_true_eq, ← h, Bool.not_eq_true', List.contains_eq_mem, decide_eq_false_iff_not]

theorem State.removals_eq_nil : s.removalsOf (evaluationOf sel f) = []
    ↔ ¬ ∃ i, s.ptab.get i ≠ .free ∧ (s.evaluateWhere sel f).ptab.get i = .free := by
  rw [List.eq_nil_iff_forall_not_mem, not_exists]
  exact forall_congr' fun i => not_congr State.mem_removals

theorem Cvb.restart_of_group {c : Cvb} {held : HeldGeometry} {g : GroupId} (h : c.prep = .inFlight g ∨ c.prep = .complete g) :
    c.restart held = c.begin held g := by
  unfold Cvb.restart
  rcases h with h | h <;> rw [h]

theorem Cvb.restart_none {c : Cvb} {held : HeldGeometry} (h : c.prep = .none) : c.restart held = c := by
  unfold Cvb.restart
  rw [h]

theorem Cvb.restart_restart (held : HeldGeometry) (c : Cvb) : (c.restart held).restart held = c.restart held := by
  have hbegin : ∀ g, (c.begin held g).restart held = c.begin held g := fun g => by
    rw [Cvb.restart_of_group (g := g) (by rw [Cvb.begin_prep]; split <;> simp)]
    rfl
  cases h : c.prep with
  | none => rw [Cvb.restart_none h, Cvb.restart_none h]
  | inFlight g => rw [Cvb.restart_of_group (.inl h), hbegin]
  | complete g => rw [Cvb.restart_of_group (.inr h), hbegin]

theorem Cvb.restart_active (held : HeldGeometry) (c : Cvb) : (c.restart held).active = c.active := by
  unfold Cvb.restart
  split <;> rfl

/-- Removals begin a preparation in flight again where there are any (R117). -/
theorem Cvb.remove_restarts {held : HeldGeometry} {removed : List PlacementId} {c : Cvb} (h : removed ≠ [] ∧ ∃ g, c.prep = .inFlight g) :
    c.remove held removed = (c.without removed).restart held := by
  obtain ⟨hne, g, hg⟩ := h
  rw [Cvb.restart_of_group (c := c.without removed) (g := g) (.inl hg)]
  unfold Cvb.remove
  rw [if_neg hne, hg]

theorem Cvb.remove_deletes {held : HeldGeometry} {removed : List PlacementId} {c : Cvb} (h : ¬ (removed ≠ [] ∧ ∃ g, c.prep = .inFlight g)) :
    c.remove held removed = c.without removed := by
  rcases Cvb.remove_cases held removed c with he | ⟨g, hne, hg, _⟩
  · exact he
  · exact absurd ⟨hne, g, hg⟩ h

/-- The lists after an evaluation: the removals deleted, and the preparation begun again by R117 and R118. -/
theorem State.coverageAfter_restarts (h : s.BeginsAgain sel f) :
    s.coverageAfter sel f = (s.cvb.without (s.removalsOf (evaluationOf sel f))).restart s.held := by
  have hdiscard : (∃ i g k, (i, g, k) ∈ s.discards sel f ∧ s.nominatedGroup = some g)
      → (s.discards sel f).any (fun d => s.nominatedGroup = some d.2.1) = true := fun ⟨i, g, k, hm, hg⟩ =>
    List.any_eq_true.2 ⟨_, hm, decide_eq_true hg⟩
  unfold State.coverageAfter
  by_cases hr : s.removalsOf (evaluationOf sel f) ≠ [] ∧ ∃ g, s.cvb.prep = .inFlight g
  · rw [Cvb.remove_restarts hr]
    split
    · exact Cvb.restart_restart _ _
    · rfl
  · rw [Cvb.remove_deletes hr]
    rcases h with ⟨hfree, hg⟩ | h
    · exact absurd ⟨fun hn => State.removals_eq_nil.1 hn hfree, hg⟩ hr
    · exact if_pos (hdiscard h)

theorem State.coverageAfter_deletes (h : ¬ s.BeginsAgain sel f) :
    s.coverageAfter sel f = s.cvb.without (s.removalsOf (evaluationOf sel f)) := by
  obtain ⟨hfree, hdiscard⟩ := not_or.1 h
  have hr : ¬ (s.removalsOf (evaluationOf sel f) ≠ [] ∧ ∃ g, s.cvb.prep = .inFlight g) := fun ⟨hne, hg⟩ =>
    hfree ⟨not_not.1 fun hn => hne (State.removals_eq_nil.2 hn), hg⟩
  have hany : ¬ (s.discards sel f).any (fun d => s.nominatedGroup = some d.2.1) = true := fun ha => by
    obtain ⟨⟨i, g, k⟩, hm, hg⟩ := List.any_eq_true.1 ha
    exact hdiscard ⟨i, g, k, hm, of_decide_eq_true hg⟩
  unfold State.coverageAfter
  rw [Cvb.remove_deletes hr]
  exact if_neg hany

/-- The active lists after an evaluation (R117). -/
theorem State.coverageAfter_active (t : TileId) : (s.coverageAfter sel f).active.get t
    = (s.cvb.active.get t).without (s.removalsOf (evaluationOf sel f)) := by
  by_cases h : s.BeginsAgain sel f
  · rw [State.coverageAfter_restarts h, Cvb.restart_active]
    exact Table.get_mapIdx _ _ _
  · rw [State.coverageAfter_deletes h]
    exact Table.get_mapIdx _ _ _

theorem State.coverageAfter_begun (h : s.BeginsAgain sel f) {g : GroupId} (hp : s.cvb.prep = .inFlight g ∨ s.cvb.prep = .complete g) :
    (s.coverageAfter sel f).shadow = Table.replicate 16 none
      ∧ (s.coverageAfter sel f).prep = if ∃ t, s.held.rects.get t ≠ none then .inFlight g else .complete g := by
  rw [State.coverageAfter_restarts h, Cvb.restart_of_group (c := s.cvb.without _) (g := g) hp]
  exact ⟨rfl, Cvb.begin_prep _ _ _⟩

theorem State.coverageAfter_kept (h : ¬ s.BeginsAgain sel f ∨ s.cvb.prep = .none) : (s.coverageAfter sel f).prep = s.cvb.prep
    ∧ ∀ t, (s.coverageAfter sel f).shadow.get t = (s.cvb.shadow.get t).map fun c => c.without (s.removalsOf (evaluationOf sel f)) := by
  have hlists : s.coverageAfter sel f = s.cvb.without (s.removalsOf (evaluationOf sel f)) := by
    by_cases hb : s.BeginsAgain sel f
    · rw [State.coverageAfter_restarts hb, Cvb.restart_none (c := s.cvb.without _) (h.resolve_left (not_not.2 hb))]
    · exact State.coverageAfter_deletes hb
  rw [hlists]
  exact ⟨rfl, fun t => Table.get_mapIdx _ _ _⟩

/-! ### The reports of an evaluation (R55) -/

/-- The reports of the discards, in the order in which they reach the event block (entry 14). -/
def State.discardReports (sel : Selection) (f : Frame) (s : State) : List Detail :=
  (inReportOrder s.now (fun (d : PlacementId × GroupId × SurfaceId) => d.1.val) (s.discards sel f)).map
    fun (d : PlacementId × GroupId × SurfaceId) => Detail.pendingDiscarded d.1 d.2.2

theorem State.evaluateWhere_evb : (s.evaluateWhere sel f).evb
    = if s.phase = .starting then s.evb else (s.discardReports sel f).foldl (fun e d => e.record d) s.evb := rfl

theorem State.mem_discardReports {d : Detail} :
    d ∈ s.discardReports sel f ↔ ∃ i g k, (i, g, k) ∈ s.discards sel f ∧ d = .pendingDiscarded i k := by
  unfold State.discardReports
  rw [List.mem_map]
  constructor
  · rintro ⟨⟨i, g, k⟩, hm, rfl⟩
    exact ⟨i, g, k, mem_inReportOrder.1 hm, rfl⟩
  · rintro ⟨i, g, k, hm, rfl⟩
    exact ⟨(i, g, k), mem_inReportOrder.2 hm, rfl⟩

theorem State.discardReports_length : (s.discardReports sel f).length = (s.discards sel f).length := by
  unfold State.discardReports inReportOrder
  rw [List.length_map, List.length_insertionSort]

theorem State.discardReports_flag : ∀ d ∈ s.discardReports sel f, d.flag = 14 := fun d hd => by
  obtain ⟨_, _, _, _, rfl⟩ := State.mem_discardReports.1 hd
  rfl

theorem State.discardReports_eq_nil (h : ∀ i g k, (i, g, k) ∉ s.discards sel f) : s.discardReports sel f = [] :=
  List.eq_nil_iff_forall_not_mem.2 fun _ hd => by
    obtain ⟨i, g, k, hm, _⟩ := State.mem_discardReports.1 hd
    exact h i g k hm

/-- What an evaluation makes of the lists, its removals being the records of `P` and its discards those of `L` (R55, R59, R117, R118). -/
theorem State.evaluateWhere_lists {P : PlacementId → Prop} [DecidablePred P]
    (hP : ∀ i, s.ptab.get i ≠ .free ∧ (s.evaluateWhere sel f).ptab.get i = .free ↔ P i) :
    (∀ t, (s.evaluateWhere sel f).cvb.active.get t
        = ⟨(s.cvb.active.get t).ids.filter fun i => ¬ P i, (s.cvb.active.get t).excluded⟩)
      ∧ (∀ g, s.BeginsAgain sel f → s.cvb.prep = .inFlight g ∨ s.cvb.prep = .complete g →
          (s.evaluateWhere sel f).cvb.shadow = Table.replicate 16 none
          ∧ (s.evaluateWhere sel f).cvb.prep = if ∃ t, s.held.rects.get t ≠ none then .inFlight g else .complete g)
      ∧ (¬ s.BeginsAgain sel f ∨ s.cvb.prep = .none → (s.evaluateWhere sel f).cvb.prep = s.cvb.prep
          ∧ ∀ t, (s.evaluateWhere sel f).cvb.shadow.get t
            = (s.cvb.shadow.get t).map fun c => ⟨c.ids.filter fun i => ¬ P i, c.excluded⟩) := by
  have hmem : ∀ i, i ∈ s.removalsOf (evaluationOf sel f) ↔ P i := fun i => State.mem_removals.trans (hP i)
  refine ⟨fun t => ?_, fun g hb hp => State.coverageAfter_begun hb hp, fun hb => ?_⟩
  · exact (State.coverageAfter_active t).trans (Coverage.without_eq hmem _)
  · obtain ⟨hprep, hshadow⟩ := State.coverageAfter_kept hb
    exact ⟨hprep, fun t => (hshadow t).trans (congrArg (Option.map · _) (funext fun c => Coverage.without_eq hmem c))⟩

/-! ### One record alone -/

theorem List.flatMap_eq_single {α β : Type} {l : List α} {g : α → List β} {a : α} (hnodup : l.Nodup) (hmem : a ∈ l) (h : ∀ b, b ≠ a → g b = []) :
    l.flatMap g = g a := by
  obtain ⟨pre, post, rfl⟩ := List.append_of_mem hmem
  obtain ⟨hpre, hpost⟩ : a ∉ pre ∧ a ∉ post := by
    rw [List.nodup_middle, List.nodup_cons, List.mem_append, not_or] at hnodup
    exact hnodup.1
  have hnil : ∀ m : List α, a ∉ m → m.flatMap g = [] := fun m hm =>
    List.flatMap_eq_nil_iff.2 fun b hb => h b fun he => hm (he ▸ hb)
  rw [List.flatMap_append, List.flatMap_cons, hnil pre hpre, hnil post hpost, List.nil_append, List.append_nil]

/-- The records selected are `i` alone (RUN_EXPIRY, FADE_COMPLETE). -/
def onlyRecord (i : PlacementId) : Selection := fun j => decide (j = i)

theorem onlyRecord_self (i : PlacementId) : onlyRecord i i = true := decide_eq_true rfl

theorem onlyRecord_ne {i j : PlacementId} (h : j ≠ i) : ¬ onlyRecord i j = true := fun he => h (of_decide_eq_true he)

theorem State.noticesOf_only (i : PlacementId) : s.noticesOf (evaluationOf (onlyRecord i) f) = ((s.ptab.get i).evaluated f).2 := by
  unfold State.noticesOf
  rw [List.flatMap_eq_single (a := i) (List.nodup_finRange 128) (List.mem_finRange i) fun j hj => ?_]
  · exact congrArg Prod.snd (if_pos (onlyRecord_self i))
  · exact congrArg Prod.snd (if_neg (onlyRecord_ne hj))

theorem State.discards_only (i : PlacementId) :
    s.discards (onlyRecord i) f = (((s.ptab.get i).discardAt f).map fun d => (i, d.1, d.2)).toList := by
  unfold State.discards
  rw [List.filterMap_eq_flatMap_toList, List.flatMap_eq_single (a := i) (List.nodup_finRange 128) (List.mem_finRange i) fun j hj => ?_]
  · rw [if_pos (onlyRecord_self i)]
  · rw [if_neg (onlyRecord_ne hj)]
    rfl

theorem State.evaluateOnly_get_self (i : PlacementId) :
    (s.evaluateWhere (onlyRecord i) f).ptab.get i = ((s.ptab.get i).evaluated f).1 :=
  (State.evaluateWhere_get i).trans (if_pos (onlyRecord_self i))

theorem State.evaluateOnly_get_ne {i j : PlacementId} (h : j ≠ i) : (s.evaluateWhere (onlyRecord i) f).ptab.get j = s.ptab.get j :=
  (State.evaluateWhere_get j).trans (if_neg (onlyRecord_ne h))

theorem State.evaluateOnly_sdir (i : PlacementId) (k : SurfaceId) : (s.evaluateWhere (onlyRecord i) f).sdir.get k
    = { s.sdir.get k with refs := (s.sdir.get k).refs - ((s.ptab.get i).evaluated f).2.count k } := by
  rw [← State.noticesOf_only]
  exact s.changeRecords_refs _ k

/-- A row that takes one record's end by itself re-tests RDY, and moves no group (R101). -/
theorem State.evaluateOnly_retested (i : PlacementId) : s.RetestedAs (s.evaluateWhere (onlyRecord i) f).retestRdy := by
  have hgroups : s.GroupsInv → (s.evaluateWhere (onlyRecord i) f).GroupsInv := fun h => h.congr (State.sameGroups_of_eq rfl rfl rfl rfl)
  exact State.retestedAs_of_retest (u := s.evaluateWhere (onlyRecord i) f) rfl hgroups (State.sameChain_of_eq rfl rfl rfl) rfl rfl rfl

end

/-! ### RecordsEnd -/

section
variable {s : State}

theorem State.evaluate_of_locked (h : s.csu.sync = .locked) : s.evaluate = s.evaluateWhere (fun _ => true) s.csu.frame := if_pos h

theorem State.evaluate_get (h : s.csu.sync = .locked) (i : PlacementId) :
    s.evaluate.ptab.get i = ((s.ptab.get i).evaluated s.csu.frame).1 := by
  rw [State.evaluate_of_locked h]
  exact (State.evaluateWhere_get i).trans (if_pos rfl)

/-- A record that loses a pending REPLACE at the boundary (R55). -/
def State.Loses (s : State) (i : PlacementId) (g : GroupId) (k : SurfaceId) : Prop := ∃ v a b new restart e,
  s.ptab.get i = .live g v a b (some (.replace new restart)) ∧ new.surface = k ∧ v.endAge = some e ∧ e ≤ (s.csu.frame - a).toNat

theorem State.loses_iff {i : PlacementId} {g : GroupId} {k : SurfaceId} :
    (i, g, k) ∈ s.discards (fun _ => true) s.csu.frame ↔ s.Loses i g k := by
  rw [State.mem_discards, Placement.discardAt_eq_some]
  exact and_iff_right rfl

/-- What the reports of an evaluation leave of the event block (R55, R188). -/
theorem State.evaluate_discarded (h : s.csu.sync = .locked) {i : PlacementId} {g : GroupId} {k : SurfaceId} (hlost : s.Loses i g k)
    (hphase : s.phase ≠ .starting) : ∃ r j h x, s.evaluate.evb.flags.get 14 = some r ∧ s.Loses j h x ∧ r.detail = .pendingDiscarded j x
      ∧ ∃ losers : List PlacementId, losers.Nodup ∧ (∀ j, j ∈ losers ↔ ∃ h x, s.Loses j h x)
        ∧ r.repeats = min 255 (((s.evb.flags.get 14).map FlagRec.repeats).getD 0 + losers.length) := by
  have hne : s.discardReports (fun _ => true) s.csu.frame ≠ [] :=
    List.ne_nil_of_mem (State.mem_discardReports.2 ⟨i, g, k, State.loses_iff.2 hlost, rfl⟩)
  obtain ⟨r, hr, hmem, hrepeats, _⟩ := Evb.get_foldl_record s.evb _ State.discardReports_flag hne
  obtain ⟨j, h', x, hj, hdetail⟩ := State.mem_discardReports.1 hmem
  refine ⟨r, j, h', x, ?_, State.loses_iff.1 hj, hdetail, _,
    State.discards_ids_nodup (s := s) (sel := fun _ => true) (f := s.csu.frame), fun j => ?_, ?_⟩
  · rw [State.evaluate_of_locked h, State.evaluateWhere_evb, if_neg hphase]
    exact hr
  · rw [List.mem_map]
    constructor
    · rintro ⟨⟨_, h', x⟩, hm, rfl⟩
      exact ⟨h', x, State.loses_iff.1 hm⟩
    · rintro ⟨h', x, hm⟩
      exact ⟨(j, h', x), State.loses_iff.2 hm, rfl⟩
  · rw [hrepeats, State.discardReports_length, List.length_map]

theorem State.beginsAgain_iff (h : s.csu.sync = .locked) : s.BeginsAgain (fun _ => true) s.csu.frame
    ↔ ((∃ i, s.ptab.get i ≠ .free ∧ s.evaluate.ptab.get i = .free) ∧ ∃ g, s.cvb.prep = .inFlight g)
      ∨ ∃ i g k, s.Loses i g k ∧ s.nominatedGroup = some g := by
  unfold State.BeginsAgain
  rw [← State.evaluate_of_locked h]
  simp only [State.loses_iff]

/-- Flags but PENDING_DISCARDED, and the enables, are not touched by an evaluation (R55). -/
theorem State.evaluate_evb_rest (h : s.csu.sync = .locked) :
    (∀ n, n ≠ 14 → s.evaluate.evb.flags.get n = s.evb.flags.get n) ∧ s.evaluate.evb.enables = s.evb.enables := by
  rw [State.evaluate_of_locked h, State.evaluateWhere_evb]
  split
  · exact ⟨fun _ _ => rfl, rfl⟩
  · exact ⟨fun n hn => Evb.get_foldl_record_ne _ _ fun d hd => (State.discardReports_flag d hd).trans_ne hn.symm,
      Evb.enables_foldl_record _ _⟩

theorem State.evaluate_evb_unlost (h : s.csu.sync = .locked) (hnone : ∀ i g k, ¬ s.Loses i g k) : s.evaluate.evb = s.evb := by
  rw [State.evaluate_of_locked h, State.evaluateWhere_evb,
    State.discardReports_eq_nil fun i g k hm => hnone i g k (State.loses_iff.1 hm)]
  exact ite_self _

/-- RUN_EXPIRY past its tests. -/
theorem State.runExpiry_ends {i : PlacementId} (hsync : s.csu.sync = .locked) (hend : (s.ptab.get i).atEnd s.csu.frame = true) :
    exec (.runExpiry i) s = .next (s.evaluateWhere (onlyRecord i) s.csu.frame).retestRdy := if_pos ⟨hsync, hend⟩

/-- FADE_COMPLETE past its tests. -/
theorem State.fadeComplete_ends {i : PlacementId} (hsync : s.csu.sync = .locked) (hend : (s.ptab.get i).fadeOver s.csu.frame = true) :
    exec (.fadeComplete i) s = .next (s.evaluateWhere (onlyRecord i) s.csu.frame).retestRdy := if_pos ⟨hsync, hend⟩

/-- The records that the evaluation of `i` alone makes FREE. -/
theorem State.freedOnly_iff {i j : PlacementId} (hused : s.ptab.get i ≠ .free) :
    s.ptab.get j ≠ .free ∧ (s.evaluateWhere (onlyRecord i) s.csu.frame).ptab.get j = .free
      ↔ j = i ∧ (s.evaluateWhere (onlyRecord i) s.csu.frame).ptab.get i = .free := by
  constructor
  · rintro ⟨hj, hfree⟩
    by_cases he : j = i
    · exact ⟨he, he ▸ hfree⟩
    · rw [State.evaluateOnly_get_ne he] at hfree
      exact absurd hfree hj
  · rintro ⟨rfl, hfree⟩
    exact ⟨hused, hfree⟩

theorem State.beginsAgainOnly_iff {i : PlacementId} (hused : s.ptab.get i ≠ .free) : s.BeginsAgain (onlyRecord i) s.csu.frame
    ↔ ((s.evaluateWhere (onlyRecord i) s.csu.frame).ptab.get i = .free ∧ ∃ h, s.cvb.prep = .inFlight h)
      ∨ ∃ g k, (s.ptab.get i).discardAt s.csu.frame = some (g, k) ∧ s.nominatedGroup = some g := by
  unfold State.BeginsAgain
  simp only [State.freedOnly_iff hused, State.mem_discards, onlyRecord, decide_eq_true_eq, exists_and_left, exists_eq_left, and_assoc]

theorem State.evaluateOnly_evb_lost {i : PlacementId} {g : GroupId} {k : SurfaceId}
    (h : (s.ptab.get i).discardAt s.csu.frame = some (g, k)) :
    (s.evaluateWhere (onlyRecord i) s.csu.frame).evb = s.told (.pendingDiscarded i k) := by
  rw [State.evaluateWhere_evb, State.discardReports, State.discards_only, h]
  rfl

theorem State.evaluateOnly_evb_kept {i : PlacementId} (h : (s.ptab.get i).discardAt s.csu.frame = none) :
    (s.evaluateWhere (onlyRecord i) s.csu.frame).evb = s.evb := by
  rw [State.evaluateWhere_evb, State.discardReports, State.discards_only, h]
  exact ite_self _

end

theorem Placement.discardAt_live {g : GroupId} {v : Values} {a b f : Frame} {p : Option Pending} {e : Nat} (he : v.endAge = some e)
    (hle : e ≤ (f - a).toNat) (h : GroupId) (k : SurfaceId) : (Placement.live g v a b p).discardAt f = some (h, k)
      ↔ h = g ∧ ∃ new restart, p = some (.replace new restart) ∧ new.surface = k := by
  rw [Placement.discardAt_eq_some]
  constructor
  · rintro ⟨v', a', b', new, restart, e', hr, hk, _, _⟩
    cases hr
    exact ⟨rfl, new, restart, rfl, hk⟩
  · rintro ⟨rfl, new, restart, rfl, hk⟩
    exact ⟨v, a, b, new, restart, e, rfl, hk, he, hle⟩

/-- The notices of a LIVE record at its end, counted (R51, R55, R56). -/
theorem Placement.evaluated_live_count {g : GroupId} {v : Values} {a b f : Frame} {p : Option Pending} {e : Nat} (he : v.endAge = some e)
    (hle : e ≤ (f - a).toNat) (k : SurfaceId) : ((Placement.live g v a b p).evaluated f).2.count k
      = (Pending.surfaces p).count k + if ((Placement.live g v a b p).evaluated f).1 = .free ∧ v.surface = k then 1 else 0 := by
  rw [Placement.evaluated_live f (Placement.atEnd_live.2 ⟨e, he, hle⟩)]
  split
  · simp [List.count_append, List.count_singleton]
  · simp

theorem Pending.count_surfaces (p : Option Pending) (k : SurfaceId) : (Pending.surfaces p).count k
    = match p with | some (.replace new _) => if new.surface = k then 1 else 0 | _ => 0 := by
  match p with
  | none => rfl
  | some .retire => rfl
  | some (.replace new _) => simp [Pending.surfaces, List.count_singleton]

/-- The counts after RUN_EXPIRY's evaluation (R51, R55, R56). -/
theorem State.evaluateOnly_live_refs {s : State} {i : PlacementId} {g : GroupId} {v : Values} {a b f : Frame} {p : Option Pending} {e : Nat}
    (hi : s.ptab.get i = .live g v a b p) (he : v.endAge = some e) (hle : e ≤ (f - a).toNat) (k : SurfaceId) :
    ((s.evaluateWhere (onlyRecord i) f).sdir.get k).refs = (s.sdir.get k).refs
      - ((Pending.surfaces p).count k
        + if (s.evaluateWhere (onlyRecord i) f).ptab.get i = .free ∧ v.surface = k then 1 else 0) := by
  rw [State.evaluateOnly_sdir, State.evaluateOnly_get_self, hi]
  exact congrArg ((s.sdir.get k).refs - ·) (Placement.evaluated_live_count he hle k)

theorem State.evaluateOnly_state {s : State} {i : PlacementId} {f : Frame} (k : SurfaceId) :
    ((s.evaluateWhere (onlyRecord i) f).sdir.get k).state = (s.sdir.get k).state := by
  rw [State.evaluateOnly_sdir]

/-- FADE_COMPLETE's evaluation: its record becomes FREE, its surface is named once less (R56). -/
theorem State.evaluateOnly_fading {s : State} {i : PlacementId} {g : GroupId} {v : Values} {a b c f : Frame}
    (hi : s.ptab.get i = .fading g v a b c) (hle : v.fadeOut ≤ (f - c).toNat) :
    (s.evaluateWhere (onlyRecord i) f).ptab = s.ptab.set i .free
      ∧ (s.evaluateWhere (onlyRecord i) f).sdir = s.sdir.modify v.surface fun r => { r with refs := r.refs - 1 } := by
  refine ⟨Table.ext_get fun j => ?_, Table.ext_get fun k => ?_⟩
  · rw [Table.get_set]
    split
    · next hj => rw [← hj, State.evaluateOnly_get_self, hi, Placement.evaluated_fades, if_pos hle]
    · next hj => exact State.evaluateOnly_get_ne fun he => hj he.symm
  · have hle' : v.fadeOut ≤ framesSince f c := hle
    rw [State.evaluateOnly_sdir, Table.get_modify, hi, Placement.evaluated_fading, if_pos hle', List.count_singleton]
    by_cases hk : v.surface = k <;> simp [hk]

/-- Settles O28: each record by R54 to R56, the lists by what is freed and what is lost, the two rows by the evaluation of one
record. -/
theorem recordsEnd : Obligations.RecordsEnd := by
  unfold Obligations.RecordsEnd
  refine ⟨⟨fun s i hl => ?_, fun s hl => if_neg hl, fun s hl => ?_, fun s i hrefs => ?_, fun s hl => ?_⟩, ?runExpiry, ?fadeComplete, ?none⟩
  · have hget := State.evaluate_get hl i
    refine ⟨fun h => ?_, fun g v h => ?_, fun g v a b f h => ?_, fun g v a b p h => ⟨fun e he hle => ?_, fun hrun => ?_⟩⟩
    · rw [hget, h]; rfl
    · rw [hget, h]; rfl
    · rw [hget, h]; exact Placement.evaluated_fades
    · rw [hget, h, Placement.evaluated_ends he hle, endFrame_eq he]
    · rw [hget, h]; exact Placement.evaluated_runs hrun
  · rw [State.evaluate_of_locked hl]
    rfl
  · exact ⟨s.evaluate_chained.surface i, (hrefs.chained s.evaluate_chained).1 i⟩
  · intro freed loses begunAgain
    have hbegun : s.BeginsAgain (fun _ => true) s.csu.frame ↔ begunAgain := State.beginsAgain_iff hl
    obtain ⟨hactive, hagain, hkept⟩ := State.evaluateWhere_lists (s := s) (sel := fun _ => true) (f := s.csu.frame) (P := freed)
      fun i => by rw [← State.evaluate_of_locked hl]
    rw [← State.evaluate_of_locked hl] at hactive hagain hkept
    obtain ⟨hflags, henables⟩ := State.evaluate_evb_rest hl
    exact ⟨hactive, fun g hb => hagain g (hbegun.2 hb), fun hb => hkept (hb.imp_left (not_congr hbegun).2),
      State.evaluate_evb_unlost hl, hflags, henables, fun i g k => State.evaluate_discarded hl⟩
  case runExpiry =>
    intro s i g v a b p e hl hi he hle
    have hused : s.ptab.get i ≠ .free := by rw [hi]; nofun
    have hlost := Placement.discardAt_live (g := g) (b := b) (p := p) he hle
    have hself := State.evaluateOnly_get_self (s := s) (f := s.csu.frame) i
    have hrow := State.runExpiry_ends hl (by rw [hi]; exact Placement.atEnd_live.2 ⟨e, he, hle⟩)
    obtain ⟨hactive, hagain, hkept⟩ := State.evaluateWhere_lists (s := s) (sel := onlyRecord i) (f := s.csu.frame)
      (P := fun j => j = i ∧ (s.evaluateWhere (onlyRecord i) s.csu.frame).ptab.get i = .free) fun j => State.freedOnly_iff hused
    refine ⟨(s.evaluateWhere (onlyRecord i) s.csu.frame).retestRdy, hrow, rfl, State.evaluateOnly_retested i,
      by rw [State.retestRdy_ptab, hself, State.evaluate_get hl],
      fun j hj => by rw [State.retestRdy_ptab, State.evaluateOnly_get_ne hj], ?_⟩
    intro freed lost begunAgain
    have hcount : ∀ k, (s.sdir.get k).refs - ((Pending.surfaces p).count k + if freed ∧ v.surface = k then 1 else 0) = _ :=
      fun k => congrArg (fun n => (s.sdir.get k).refs - (n + if freed ∧ v.surface = k then 1 else 0)) (Pending.count_surfaces p k)
    have hbegun : s.BeginsAgain (onlyRecord i) s.csu.frame ↔ begunAgain := by
      rw [State.beginsAgainOnly_iff hused]
      refine or_congr Iff.rfl ?_
      simp only [hi, hlost]
      exact ⟨fun ⟨_, k, ⟨hg, hk⟩, hn⟩ => ⟨⟨k, hk⟩, hg ▸ hn⟩, fun ⟨⟨k, hk⟩, hn⟩ => ⟨g, k, ⟨rfl, hk⟩, hn⟩⟩
    have hrefs := fun k => (State.evaluateOnly_live_refs (f := s.csu.frame) hi he hle k).trans (hcount k)
    have hstate := State.evaluateOnly_state (s := s) (i := i) (f := s.csu.frame)
    have hevb := fun k (hk : lost k) => State.evaluateOnly_evb_lost (s := s) (i := i) (by rw [hi]; exact (hlost g k).2 ⟨rfl, hk⟩)
    have hkeptEvb := State.evaluateOnly_evb_kept (s := s) (i := i)
    refine ⟨fun k => ⟨hstate k, hrefs k⟩, hactive, fun h hb => hagain h (hbegun.2 hb), fun hb => hkept (hb.imp_left (not_congr hbegun).2),
      hevb, fun hk => hkeptEvb (Option.eq_none_iff_forall_ne_some.2 fun ⟨h, k⟩ hd => hk k ?_)⟩
    rw [hi, hlost] at hd
    exact hd.2
  case fadeComplete =>
    intro s i g v a b f hl hi hle
    have hused : s.ptab.get i ≠ .free := by rw [hi]; nofun
    have hfree : (s.evaluateWhere (onlyRecord i) s.csu.frame).ptab.get i = .free := by
      rw [State.evaluateOnly_get_self, hi, Placement.evaluated_fades, if_pos hle]
    have hdiscard : (s.ptab.get i).discardAt s.csu.frame = none := by rw [hi]; rfl
    have hrow := State.fadeComplete_ends (i := i) hl (by rw [hi]; exact decide_eq_true hle)
    obtain ⟨hactive, hagain, hkept⟩ := State.evaluateWhere_lists (s := s) (sel := onlyRecord i) (f := s.csu.frame) (P := (· = i))
      fun j => (State.freedOnly_iff hused).trans (and_iff_left hfree)
    have hbegun : s.BeginsAgain (onlyRecord i) s.csu.frame ↔ ∃ h, s.cvb.prep = .inFlight h := by
      rw [State.beginsAgainOnly_iff hused, hdiscard, and_iff_right hfree]
      exact or_iff_left fun ⟨_, _, hd, _⟩ => nomatch hd
    obtain ⟨hptab, hsdir⟩ := State.evaluateOnly_fading hi hle
    have hevb := State.evaluateOnly_evb_kept hdiscard
    refine ⟨(s.evaluateWhere (onlyRecord i) s.csu.frame).retestRdy, hrow, ?_, State.evaluateOnly_retested i, hptab, hsdir, hactive,
      fun h hp => hagain h (hbegun.2 ⟨h, hp⟩) (.inl hp), fun hn => hkept (.inl fun hb => ?_)⟩
    · rw [← hevb]
      rfl
    · obtain ⟨h, hp⟩ := hbegun.1 hb
      exact hn h hp
  case none =>
    refine fun s i => ⟨fun h => if_neg fun ⟨hl, hend⟩ => ?_, fun h => if_neg fun ⟨hl, hend⟩ => ?_⟩
    · have hruns := h.resolve_left (not_not.2 hl)
      match hi : s.ptab.get i, hend with
      | .live g v a b p, hend =>
        obtain ⟨e, he, hle⟩ := Placement.atEnd_live.1 hend
        exact absurd (hruns g v a b p e hi he) (Nat.not_lt.2 hle)
    · have hruns := h.resolve_left (not_not.2 hl)
      match hi : s.ptab.get i, hend with
      | .fading g v a b f, hend => exact absurd (hruns g v a b f hi) (Nat.not_lt.2 (of_decide_eq_true hend))

end Sys2Proof.Machine

/-! SUPPORT. A slave that loses the words, and SyncIsLost. -/

namespace Sys2Proof.Machine

section
variable {s : State} {g : GroupId}

/-- Where one group is held, no other holds records. -/
theorem State.OneHeld.unheld (hone : s.OneHeld) (hg : (s.groupState g).Locks) : ¬ ∃ h, h ≠ g ∧ (s.groupState h).holdsRecords = true :=
  fun ⟨h, hne, hholds⟩ => hne (hone h g (GroupState.holdsRecords_iff.1 hholds) hg)

/-- An abandon of the one group held (R85). -/
theorem State.OneHeld.executeAbandon_eq (hone : s.OneHeld) (hg : (s.groupState g).Locks) : s.executeAbandon g = { s with
    groups := s.groups.set g ((s.groups.get g).ended none)
    cvb := if s.cvb.prep = .inFlight g ∨ s.cvb.prep = .complete g then ⟨s.cvb.active, Table.replicate 16 none, .none⟩ else s.cvb
    evb := s.told (.commitAbandoned g s.csu.frame)
    csu := { s.csu with readinessGiven := false, desyncHold := none } } := by
  rw [State.executeAbandon_eq_whole, if_neg (hone.unheld hg)]
  rfl

/-- What a loss of the words may change of the group held (R103). -/
theorem State.OneHeld.holdThroughLoss_eq (hone : s.OneHeld) : s.holdThroughLoss = { s with
    groups := s.holdThroughLoss.groups, cvb := s.holdThroughLoss.cvb, evb := s.holdThroughLoss.evb
    csu := { s.csu with
      readinessGiven := s.holdThroughLoss.csu.readinessGiven, desyncHold := s.holdThroughLoss.csu.desyncHold } } := by
  by_cases hg : ∃ g f, s.groupState g = .nominated f
  · obtain ⟨g, f, hg⟩ := hg
    by_cases hr : s.csu.readinessGiven = true
    · rw [State.holdThroughLoss_ready hone hg hr]
      rfl
    · rw [State.holdThroughLoss_unready hone hg (Bool.eq_false_iff.2 hr), hone.executeAbandon_eq (.of_nominated hg)]
  · rw [State.holdThroughLoss_none fun k f hk => hg ⟨k, f, hk⟩]

theorem State.told_get {d : Detail} (h : s.phase ≠ .starting) : ∃ r, (s.told d).flags.get d.flag = some r ∧ r.detail = d :=
  State.report_get s h

theorem State.told_get_ne {d : Detail} {n : Fin 16} (h : n ≠ d.flag) : (s.told d).flags.get n = s.evb.flags.get n :=
  State.report_get_ne s h

/-- A loss of the words reports of the group held only IN_DOUBT and COMMIT_ABANDONED (R103). -/
theorem State.OneHeld.holdThroughLoss_get (hone : s.OneHeld) : s.holdThroughLoss.evb.flags.get 10 = s.evb.flags.get 10 := by
  by_cases hg : ∃ g f, s.groupState g = .nominated f
  · obtain ⟨g, f, hg⟩ := hg
    by_cases hr : s.csu.readinessGiven = true
    · rw [State.holdThroughLoss_ready hone hg hr]
      exact State.report_get_ne _ (show (10 : Fin 16) ≠ 3 by decide)
    · rw [State.holdThroughLoss_unready hone hg (Bool.eq_false_iff.2 hr), hone.executeAbandon_eq (.of_nominated hg)]
      exact State.told_get_ne (show (10 : Fin 16) ≠ 2 by decide)
  · rw [State.holdThroughLoss_none fun k f hk => hg ⟨k, f, hk⟩]

end

/-- Settles O39: a part that is LOST does not release RDY; the group held goes by whether readiness was given (R103). -/
theorem syncIsLost : Obligations.SyncIsLost := by
  unfold Obligations.SyncIsLost
  intro s since hrole hsync htimer hgroups
  have hone : s.OneHeld := (State.groupsInv_iff.1 hgroups).1
  have hrow : exec .syncLoss s = .next (s.atLeast (since + 3 * s.rateNow.period)).loseSync := by
    show execSyncLoss s = _
    unfold execSyncLoss
    rw [hrole, hsync, htimer]
  have hone' : (s.atLeast (since + 3 * s.rateNow.period)).lossOpened.OneHeld := hone
  have hheld := hone'.holdThroughLoss_eq
  have hlost := hone'.holdThroughLoss_get
  have hready := fun g f => State.holdThroughLoss_ready (g := g) (f := f) hone'
  have hunready := fun g f hg hr => (State.holdThroughLoss_unready (g := g) (f := f) hone' hg hr).trans
    (hone'.executeAbandon_eq (.of_nominated hg))
  have hnone := State.holdThroughLoss_none (s := (s.atLeast (since + 3 * s.rateNow.period)).lossOpened)
  rw [State.loseSync_eq, State.retestRdy_of_fail (State.rdyConditions_of_unlocked (by rw [hheld]; nofun))] at hrow
  generalize (s.atLeast (since + 3 * s.rateNow.period)).lossOpened.holdThroughLoss = p at hrow hheld hlost hready hunready hnone
  obtain ⟨m, hm⟩ : ∃ m, m = ({ p with csu := { p.csu with rdyReleased := false } } : State) := ⟨_, rfl⟩
  rw [← hm] at hrow
  obtain ⟨groups, cvb, evb, given, hold, rfl⟩ : ∃ groups cvb evb given hold, p
      = { (s.atLeast (since + 3 * s.rateNow.period)).lossOpened with
          groups := groups, cvb := cvb, evb := evb
          csu := { (s.atLeast (since + 3 * s.rateNow.period)).lossOpened.csu with readinessGiven := given, desyncHold := hold } } :=
    ⟨_, _, _, _, _, hheld⟩
  have hclosed := m.closeBoundary_eq
  have hgroups : m.closeBoundary.groups = groups := by rw [hclosed, hm]
  have hcvb : m.closeBoundary.cvb = cvb := by rw [hclosed, hm]
  have hgiven : m.closeBoundary.csu.readinessGiven = given := by rw [hclosed, hm]
  have hhold : m.closeBoundary.csu.desyncHold = hold := by rw [hclosed, hm]
  have hevb : m.evb = evb := by rw [hm]
  refine ⟨_, hrow, ?now, ?csu, ?report, ?fields, m, rfl, ?opened, ?none, ?ready, ?unready⟩
  case now => rw [hclosed, hm]; rfl
  case csu => rw [hclosed, hm]; rfl
  case report =>
    intro hphase
    have hget := m.closeBoundary_get (i := 10) (by decide) (by decide)
    rw [hget, hm]
    rw [hlost]
    exact State.told_get (s := s) hphase
  case fields => rw [hclosed, hm]; rfl
  case opened => rw [hclosed, hm]; rfl
  case none =>
    intro hfree
    have hp := hnone fun k f hk => hfree k (.of_nominated hk)
    exact ⟨hgroups.trans (congrArg State.groups hp), hcvb.trans (congrArg State.cvb hp), hevb.trans (congrArg State.evb hp)⟩
  case ready =>
    intro g f hg hr
    have hp := hready g f hg hr
    exact ⟨hgroups.trans (congrArg State.groups hp), hcvb.trans (congrArg State.cvb hp),
      hgiven.trans ((congrArg (fun u => u.csu.readinessGiven) hp).trans hr), hevb.trans (congrArg State.evb hp)⟩
  case unready =>
    intro g f hg hr
    have hp := hunready g f hg hr
    exact ⟨hgroups.trans (congrArg State.groups hp), hcvb.trans (congrArg State.cvb hp), hgiven.trans (congrArg (fun u => u.csu.readinessGiven) hp),
      hhold.trans (congrArg (fun u => u.csu.desyncHold) hp), hevb.trans (congrArg State.evb hp)⟩

end Sys2Proof.Machine

/-! SUPPORT. What a chain of operations reports, the end of a boundary, the actions of a word on a slave in lock, and
LockedWordTaken. -/

namespace Sys2Proof.Machine

/-! ### Reports made on the way (R188) -/

/-- `t` has in its event block what `s` had, and reports to the flags `fl` after it. -/
def State.Tells (fl : List (Fin 16)) (s t : State) : Prop :=
  ∃ ds : List Detail, (∀ d ∈ ds, d.flag ∈ fl) ∧ t.evb = ds.foldl (fun e d => e.record d) s.evb

section
variable {s t u : State} {fl fl' : List (Fin 16)}

theorem State.tells_of_evb (h : t.evb = s.evb) : s.Tells fl t := ⟨[], nofun, h⟩

theorem State.Tells.trans (h : s.Tells fl t) (k : t.Tells fl u) : s.Tells fl u := by
  obtain ⟨ds, hds, ht⟩ := h
  obtain ⟨es, hes, hu⟩ := k
  refine ⟨ds ++ es, fun d hd => ?_, by rw [hu, ht, List.foldl_append]⟩
  rcases List.mem_append.1 hd with hd | hd
  · exact hds d hd
  · exact hes d hd

theorem State.Tells.mono (h : s.Tells fl t) (hsub : ∀ n ∈ fl, n ∈ fl') : s.Tells fl' t := by
  obtain ⟨ds, hds, ht⟩ := h
  exact ⟨ds, fun d hd => hsub _ (hds d hd), ht⟩

theorem State.tells_of_told {d : Detail} (h : t.evb = s.told d) (hd : d.flag ∈ fl) : s.Tells fl t := by
  by_cases hp : s.phase = .starting
  · exact State.tells_of_evb (h.trans (if_pos hp))
  · refine ⟨[d], fun e he => ?_, h.trans (if_neg hp)⟩
    rw [List.mem_singleton.1 he]
    exact hd

theorem State.tells_reportAll (ds : List Detail) (hds : ∀ d ∈ ds, d.flag ∈ fl) : s.Tells fl (s.reportAll ds) := by
  by_cases hp : s.phase = .starting
  · exact State.tells_of_evb (if_pos hp)
  · exact ⟨ds, hds, if_neg hp⟩

/-- A flag that is not reported to stays. -/
theorem State.Tells.get (h : s.Tells fl t) {n : Fin 16} (hn : n ∉ fl) : t.evb.flags.get n = s.evb.flags.get n := by
  obtain ⟨ds, hds, ht⟩ := h
  rw [ht]
  exact Evb.get_foldl_record_ne _ _ fun d hd he => hn (he ▸ hds d hd)

/-- A flag that is set stays set. -/
theorem State.Tells.isSome (h : s.Tells fl t) {n : Fin 16} (hn : (s.evb.flags.get n).isSome = true) :
    (t.evb.flags.get n).isSome = true := by
  obtain ⟨ds, hds, ht⟩ := h
  rw [ht]
  clear ht hds
  induction ds using List.reverseRecOn with
  | nil => exact hn
  | append_singleton ds d ih =>
    rw [List.foldl_append]
    by_cases he : n = d.flag
    · rw [he]
      exact Option.isSome_iff_exists.2 ⟨_, Evb.record_get _ d⟩
    · exact (congrArg Option.isSome (Evb.record_get_ne _ he)).trans ih

end

section
variable (s : State)

theorem State.executeCut_tells (g : GroupId) (f : Frame) : s.Tells [1, 9] (s.executeCut g f) := by
  have hdone : s.Tells [1, 9] (s.report (.cutDone g (s.csu.cutSequence + 1) f)) := State.tells_of_told rfl (by simp [Detail.flag])
  refine hdone.trans (State.Tells.trans (t := (s.report (.cutDone g (s.csu.cutSequence + 1) f)).reportAll (s.listsAfterCut g f).overcover)
    (State.tells_reportAll _ fun d hd => ?_) (State.tells_of_evb rfl))
  unfold Cvb.overcover at hd
  split at hd
  · cases hd
  · rw [List.mem_singleton.1 hd]
    simp [Detail.flag]

theorem State.executeAbandon_tells (g : GroupId) : s.Tells [2] (s.executeAbandon g) :=
  State.tells_of_told (d := .commitAbandoned g s.csu.frame) rfl (by simp [Detail.flag])

theorem State.evaluate_tells : s.Tells [14] s.evaluate := by
  by_cases h : s.csu.sync = .locked
  · rw [State.evaluate_of_locked h]
    by_cases hp : s.phase = .starting
    · exact State.tells_of_evb (if_pos hp)
    · refine ⟨s.discardReports (fun _ => true) s.csu.frame, fun d hd => ?_, if_neg hp⟩
      rw [State.discardReports_flag d hd]
      decide
  · exact State.tells_of_evb (congrArg State.evb (if_neg h))

theorem State.handOver_eq (flag : Bool) (f : Frame) : s.handOver flag f = { s with
    csu := { s.csu with blackoutFlag := flag }
    evb := if (flag && !s.csu.blackoutFlag) = true then s.told (.blackout f) else s.evb } := by
  unfold State.handOver State.told State.reportAll
  by_cases h : (flag && !s.csu.blackoutFlag) = true
  · simp only [h, if_true]
    rfl
  · simp only [h]
    simp

theorem State.handOver_tells (flag : Bool) (f : Frame) : s.Tells [13] (s.handOver flag f) := by
  rw [State.handOver_eq]
  by_cases h : (flag && !s.csu.blackoutFlag) = true
  · exact State.tells_of_told (d := .blackout f) (if_pos h) (by simp [Detail.flag])
  · exact State.tells_of_evb (if_neg h)

theorem State.closeBoundary_tells : s.Tells [0, 6] s.closeBoundary := by
  have hticked : s.stepPorts.Tells [0, 6] (s.stepPorts.report (.frameTick s.csu.frame)) := State.tells_of_told rfl (by simp [Detail.flag])
  have hsteps : s.Tells [0, 6] s.stepPorts := State.Tells.trans (t := { s with ports := Table.ofFn fun t => (s.portStep t).1 })
    (State.tells_of_evb rfl) (State.tells_reportAll _ fun d hd => by
      obtain ⟨t, ht⟩ := State.mem_tileReports.1 hd
      rw [changesThrough_flag ht]
      decide)
  exact (hsteps.trans hticked).trans (State.tells_of_evb s.closeBoundary_evb)

end

/-! ### The end of a boundary in lock -/

/-- The re-test, the flag and the end of the boundary (R101, R109). -/
def State.endsBoundary (flag : Bool) (f : Frame) (s : State) : State := ((s.retestRdy).handOver flag f).closeBoundary

section
variable {s : State} {flag : Bool} {f : Frame}

theorem State.finishBoundary_eq : s.finishBoundary flag f = s.evaluate.endsBoundary flag f := rfl

/-- What the end of a boundary leaves of the part. -/
theorem State.endsBoundary_eq : s.endsBoundary flag f = { s with
    csu := { s.csu with
      blackoutFlag := flag, rdyReleased := s.rdyConditions, readinessGiven := s.csu.readinessGiven || s.rdyConditions }
    ports := (s.endsBoundary flag f).ports, frames := (s.endsBoundary flag f).frames, links := (s.endsBoundary flag f).links
    cmp := (s.endsBoundary flag f).cmp, fsc := (s.endsBoundary flag f).fsc, evb := (s.endsBoundary flag f).evb } := by
  have h := ((s.retestRdy).handOver flag f).closeBoundary_eq
  exact h

theorem State.endsBoundary_csu : (s.endsBoundary flag f).csu = { s.csu with
    blackoutFlag := flag, rdyReleased := s.rdyConditions, readinessGiven := s.csu.readinessGiven || s.rdyConditions } := by
  rw [State.endsBoundary_eq]

theorem State.endsBoundary_tells : s.Tells [0, 6, 13] (s.endsBoundary flag f) := by
  have hretested : s.Tells [0, 6, 13] s.retestRdy := State.tells_of_evb rfl
  exact (hretested.trans ((s.retestRdy.handOver_tells flag f).mono (by decide))).trans ((State.closeBoundary_tells _).mono (by decide))

theorem State.endsBoundary_tick (h : s.phase ≠ .starting) :
    ∃ r, (s.endsBoundary flag f).evb.flags.get 0 = some r ∧ r.detail = .frameTick s.csu.frame :=
  State.closeBoundary_tick ((s.retestRdy).handOver flag f) h

theorem State.endsBoundary_blackout (h : s.phase ≠ .starting) (hflag : flag = true) (hwas : s.csu.blackoutFlag = false) :
    ∃ r, (s.endsBoundary flag f).evb.flags.get 13 = some r ∧ r.detail = .blackout f := by
  have hrose : (flag && !s.retestRdy.csu.blackoutFlag) = true := by
    rw [hflag]
    exact congrArg not hwas
  have hover : ((s.retestRdy).handOver flag f).evb = s.told (.blackout f) :=
    (congrArg State.evb (State.handOver_eq _ _ _)).trans (if_pos hrose)
  obtain ⟨r, hr, hdetail⟩ := State.told_get (s := s) (d := .blackout f) h
  refine ⟨r, ?_, hdetail⟩
  exact ((State.closeBoundary_tells _).get (by decide)).trans ((congrArg (fun e => Evb.flags e |>.get 13) hover).trans hr)

end

/-! ### The actions of a word (R96 to R99) -/

section
variable {s k : State} {g : GroupId} {w : SyncWord} {previous : Frame}

/-- The check of R96 where a group is NOMINATED and where none is. -/
theorem State.checkSequence_unheld (hsame : w.cutSequence = s.csu.cutSequence) (hnone : ∀ h n, s.groupState h ≠ .nominated n) :
    s.checkSequence w previous = s := by
  unfold State.checkSequence
  rw [if_pos hsame, State.nominatedGroup_eq_none.2 hnone]

theorem State.checkSequence_inStep (hsame : w.cutSequence = s.csu.cutSequence) (hnext : w.frame = previous + 1) :
    s.checkSequence w previous = s := by
  unfold State.checkSequence
  rw [if_pos hsame]
  split
  · rfl
  · exact if_pos hnext

theorem State.checkSequence_missed (hone : s.OneHeld) {n : Frame} (hsame : w.cutSequence = s.csu.cutSequence) (hmissed : w.frame ≠ previous + 1)
    (hg : s.groupState g = .nominated n) : s.checkSequence w previous = s.executeAbandon g := by
  unfold State.checkSequence
  rw [if_pos hsame, hone.nominatedGroup_eq hg]
  exact if_neg hmissed

theorem succ_ne_sequence (n : BitVec 4) : n + 1 ≠ n := by
  intro h
  bv_omega

/-- The late cut of R96 is that of the group NOMINATED, with readiness given. -/
theorem State.lateCutOf_eq_some {held : Option GroupId} {f : Frame} : s.lateCutOf w held = some (g, f)
    ↔ w.cutSequence = s.csu.cutSequence + 1 ∧ w.lastCut = some (g, f) ∧ held = some g ∧ s.csu.readinessGiven = true := by
  unfold State.lateCutOf
  cases hl : w.lastCut with
  | none => simp
  | some last =>
    obtain ⟨h, e⟩ := last
    cases held with
    | none => simp
    | some k =>
      simp only [Option.some.injEq, Prod.mk.injEq]
      constructor
      · intro hif
        split at hif
        · next hc =>
          obtain ⟨hseq, rfl, hgiven⟩ := hc
          cases hif
          exact ⟨hseq, ⟨rfl, rfl⟩, rfl, hgiven⟩
        · cases hif
      · rintro ⟨hseq, ⟨rfl, rfl⟩, rfl, hgiven⟩
        exact if_pos ⟨hseq, rfl, hgiven⟩

theorem State.checkSequence_late (hone : s.OneHeld) {f n : Frame} (hahead : w.cutSequence = s.csu.cutSequence + 1)
    (hlast : w.lastCut = some (g, f)) (hg : s.groupState g = .nominated n) (hgiven : s.csu.readinessGiven = true) :
    s.checkSequence w previous = s.executeCut g f := by
  have hdiffers : w.cutSequence ≠ s.csu.cutSequence := by
    rw [hahead]
    exact succ_ne_sequence _
  have hlate : s.lateCutOf w s.nominatedGroup = some (g, f) :=
    State.lateCutOf_eq_some.2 ⟨hahead, hlast, hone.nominatedGroup_eq hg, hgiven⟩
  unfold State.checkSequence
  rw [if_neg hdiffers, hlate]

theorem State.checkSequence_apart (hdiffers : w.cutSequence ≠ s.csu.cutSequence)
    (hnot : ∀ h f, ¬ (w.cutSequence = s.csu.cutSequence + 1 ∧ w.lastCut = some (h, f) ∧ (∃ n, s.groupState h = .nominated n)
      ∧ s.csu.readinessGiven = true)) : s.checkSequence w previous = (s.desync .sequence w []).adoptSequence w := by
  have hlate : s.lateCutOf w s.nominatedGroup = none := Option.eq_none_iff_forall_ne_some.2 fun ⟨h, f⟩ hl => by
    obtain ⟨hseq, hlast, hheld, hgiven⟩ := State.lateCutOf_eq_some.1 hl
    exact hnot h f ⟨hseq, hlast, State.nominatedGroup_some hheld, hgiven⟩
  unfold State.checkSequence
  rw [if_neg hdiffers, hlate]

/-- The check of R96, whole. -/
theorem State.OneHeld.checkSequence_checked (hone : s.OneHeld) : s.Checked previous w (s.checkSequence w previous) := by
  refine ⟨fun hsame h => ?_, fun h n hsame hmissed hg => State.checkSequence_missed hone hsame hmissed hg,
    fun h f ⟨hahead, hlast, ⟨n, hg⟩, hgiven⟩ => State.checkSequence_late hone hahead hlast hg hgiven,
    fun hdiffers hnot => State.checkSequence_apart hdiffers hnot⟩
  rcases h with h | h
  · exact State.checkSequence_unheld hsame h
  · exact State.checkSequence_inStep hsame h

/-- A NOMINATE word (R97). -/
theorem State.takeNominate_free (hnone : ∀ h, ¬ (k.groupState h).Locks) : k.takeNominate g w = k.nominate g w.frame := by
  unfold State.takeNominate
  rw [State.heldGroup_eq_none.2 hnone]

theorem State.OneHeld.takeNominate_refused (hone : k.OneHeld) {h : GroupId} (hh : (k.groupState h).Locks) : k.takeNominate g w = { k with
    csu := { k.csu with desyncHold := some g }
    evb := k.told (.desync .secondNomination w.frame w.cutSequence k.csu.cutSequence [g, h]) } := by
  unfold State.takeNominate
  rw [hone.heldGroup_eq hh]
  rfl

theorem State.OneHeld.takeNominate_nominates (hone : k.OneHeld) : k.Nominates g w (k.takeNominate g w) :=
  ⟨fun hnone => State.takeNominate_free hnone, fun _ hh => hone.takeNominate_refused hh⟩

/-- A CUT word (R98). -/
theorem State.takeCut_cutsBy : k.CutsBy g w (k.takeCut g w) := by
  refine ⟨_, rfl, ?_⟩
  unfold State.takeCut
  split <;> rfl

/-- An ABANDON word (R99). -/
theorem State.OneHeld.takeAbandon_abandonsBy (hone : k.OneHeld) : k.AbandonsBy g (k.takeAbandon g) := by
  unfold State.takeAbandon
  refine ⟨fun ⟨n, hn⟩ => by rw [hn], fun h hidle hhold hh => ?_, fun hnot h => ?_⟩
  · rw [hidle]
    simp only [hhold, if_true, hone.heldGroup_eq hh]
  · cases hg : k.groupState g with
    | nominated n => exact absurd hg (hnot n)
    | armed => rfl
    | due => rfl
    | inDoubt n => rfl
    | idle =>
      simp only
      rcases h with h | h | h
      · exact absurd hg h
      · exact if_neg h
      · rw [State.heldGroup_eq_none.2 h]
        exact ite_self _

end

/-! ### The sequence and the last cut after a word (R96) -/

section
variable {s : State} {g : GroupId} {w : SyncWord} {previous : Frame}

theorem State.executeAbandon_kept : (s.executeAbandon g).csu.cutSequence = s.csu.cutSequence
    ∧ (s.executeAbandon g).csu.lastCut = s.csu.lastCut := by
  rw [State.executeAbandon_eq_whole]
  constructor <;> (dsimp only; split <;> rfl)

theorem State.takeNominate_kept : (s.takeNominate g w).csu.cutSequence = s.csu.cutSequence
    ∧ (s.takeNominate g w).csu.lastCut = s.csu.lastCut := by
  unfold State.takeNominate
  split <;> exact ⟨rfl, rfl⟩

theorem State.takeAbandon_kept : (s.takeAbandon g).csu.cutSequence = s.csu.cutSequence
    ∧ (s.takeAbandon g).csu.lastCut = s.csu.lastCut := by
  unfold State.takeAbandon
  split
  · exact State.executeAbandon_kept
  · split
    · split
      · exact State.executeAbandon_kept
      · exact ⟨rfl, rfl⟩
    · exact ⟨rfl, rfl⟩
  all_goals exact ⟨rfl, rfl⟩

theorem State.checkSequence_sequence : (s.checkSequence w previous).csu.cutSequence = w.cutSequence
    ∧ (s.checkSequence w previous).csu.lastCut = if w.cutSequence = s.csu.cutSequence then s.csu.lastCut else w.lastCut := by
  unfold State.checkSequence
  split
  · next hsame =>
    split
    · exact ⟨hsame.symm, rfl⟩
    · split
      · exact ⟨hsame.symm, rfl⟩
      · exact State.executeAbandon_kept.imp_left (Eq.trans · hsame.symm)
  · next hdiffers =>
    split
    · next g f hl =>
      obtain ⟨hseq, hlast, _⟩ := State.lateCutOf_eq_some.1 hl
      exact ⟨(s.executeCut_sequence g f).trans hseq.symm, (s.executeCut_lastCut g f).trans hlast.symm⟩
    · exact ⟨rfl, rfl⟩

theorem State.actOn_sequence : (s.actOn w previous).csu.cutSequence = w.cutSequence
    ∧ (s.actOn w previous).csu.lastCut
      = if w.cutSequence = s.csu.cutSequence ∧ (∀ g, w.kind ≠ .cut g) then s.csu.lastCut else w.lastCut := by
  obtain ⟨hseq, hlast⟩ := State.checkSequence_sequence (s := s) (w := w) (previous := previous)
  have hplain : (∀ g, w.kind ≠ .cut g) →
      (if w.cutSequence = s.csu.cutSequence then s.csu.lastCut else w.lastCut)
        = if w.cutSequence = s.csu.cutSequence ∧ (∀ g, w.kind ≠ .cut g) then s.csu.lastCut else w.lastCut := fun h =>
    if_congr (and_iff_left h).symm rfl rfl
  unfold State.actOn
  split
  · next hk => exact ⟨hseq, hlast.trans (hplain (by rw [hk]; nofun))⟩
  · next g hk =>
    obtain ⟨hseq', hlast'⟩ := State.takeNominate_kept (s := s.checkSequence w previous) (g := g) (w := w)
    exact ⟨hseq'.trans hseq, (hlast'.trans hlast).trans (hplain (by rw [hk]; nofun))⟩
  · next g hk =>
    refine ⟨rfl, ?_⟩
    rw [if_neg fun h => h.2 g hk]
    rfl
  · next g hk =>
    obtain ⟨hseq', hlast'⟩ := State.takeAbandon_kept (s := s.checkSequence w previous) (g := g)
    exact ⟨hseq'.trans hseq, (hlast'.trans hlast).trans (hplain (by rw [hk]; nofun))⟩

end

/-! ### What the actions of a word report -/

section
variable (s : State) (g : GroupId) (w : SyncWord) (previous : Frame)

theorem State.desync_tells (reason : DesyncReason) (gs : List GroupId) : s.Tells [4] (s.desync reason w gs) :=
  State.tells_of_told rfl (by simp [Detail.flag])

theorem State.checkSequence_tells : s.Tells [1, 2, 4, 9] (s.checkSequence w previous) := by
  unfold State.checkSequence
  split
  · split
    · exact State.tells_of_evb rfl
    · split
      · exact State.tells_of_evb rfl
      · exact (s.executeAbandon_tells _).mono (by decide)
  · split
    · exact (s.executeCut_tells _ _).mono (by decide)
    · exact ((s.desync_tells w _ _).mono (by decide)).trans (State.tells_of_evb rfl)

theorem State.takeNominate_tells : s.Tells [1, 2, 4, 9] (s.takeNominate g w) := by
  unfold State.takeNominate
  split
  · exact State.tells_of_evb rfl
  · exact ((s.desync_tells w _ _).mono (by decide)).trans (State.tells_of_evb rfl)

theorem State.takeCut_tells : s.Tells [1, 2, 4, 9] (s.takeCut g w) := by
  have hcut : ∀ u : State, s.Tells [1, 2, 4, 9] u → s.Tells [1, 2, 4, 9] ((u.executeCut g w.frame).adoptSequence w) := fun u hu =>
    (hu.trans ((u.executeCut_tells g w.frame).mono (by decide))).trans (State.tells_of_evb rfl)
  unfold State.takeCut
  split
  · exact hcut s (State.tells_of_evb rfl)
  · exact hcut _ ((s.desync_tells w _ _).mono (by decide))

theorem State.takeAbandon_tells : s.Tells [1, 2, 4, 9] (s.takeAbandon g) := by
  have habandon : ∀ h, s.Tells [1, 2, 4, 9] (s.executeAbandon h) := fun h => (s.executeAbandon_tells h).mono (by decide)
  unfold State.takeAbandon
  split
  · exact habandon _
  · split
    · split
      · exact habandon _
      · exact State.tells_of_evb rfl
    · exact State.tells_of_evb rfl
  all_goals exact State.tells_of_evb rfl

theorem State.actOn_tells : s.Tells [1, 2, 4, 9] (s.actOn w previous) := by
  have hchecked := s.checkSequence_tells w previous
  unfold State.actOn
  split
  · exact hchecked
  · exact hchecked.trans (State.takeNominate_tells _ _ w)
  · exact s.takeCut_tells _ w
  · exact hchecked.trans (State.takeAbandon_tells _ _)

end

/-! ### LockedWordTaken -/

section
variable {s : State} {w : SyncWord}

/-- SYNC_WORD_ARRIVAL on a slave: the word is received (R95). -/
theorem State.exec_syncWordArrival {bytes : List Byte} (hword : parseSyncWord bytes = some w) (hrole : s.clc.straps.role = .slave) :
    exec (.syncWordArrival bytes) s = .next (s.receiveWord w) := by
  show execSyncWordArrival bytes s = _
  unfold execSyncWordArrival
  rw [hrole, hword]

theorem State.receiveWord_starting (h : s.phase = .starting) : s.receiveWord w = { s with csu := { s.csu with lockRun := 0 } } := if_pos h

theorem State.receiveWord_locked (h : s.phase ≠ .starting) (hsync : s.csu.sync = .locked) : s.receiveWord w = s.takeWord w := by
  unfold State.receiveWord
  rw [if_neg h, if_pos hsync]

theorem State.receiveWord_unlocked (h : s.phase ≠ .starting) (hsync : s.csu.sync ≠ .locked) : s.receiveWord w = s.countTowardLock w := by
  unfold State.receiveWord
  rw [if_neg h, if_neg hsync]

/-- The part with the word taken and not yet acted on (R95). -/
theorem State.wordOpened_awake (h : s.phase ≠ .starting) : s.wordOpened w = { s with
    csu := { s.csu with frame := w.frame, boundaryAt := s.now, lossTimer := some s.now }
    bgNow := s.bg, rateNow := s.rate
    evb := if 1 ≤ (w.frame - s.csu.frame).toNat ∧ (w.frame - s.csu.frame).toNat ≤ 2147483647 then s.evb
      else s.evb.record (.desync .frameBack w.frame w.cutSequence s.csu.cutSequence []) } := by
  have hdesync : (s.desync .frameBack w []).evb = s.evb.record (.desync .frameBack w.frame w.cutSequence s.csu.cutSequence []) := if_neg h
  rw [State.wordOpened_eq, hdesync, if_congr frameAhead_iff rfl rfl]

/-- The part once the word is acted on: what of its chain state the word has moved (R95 to R99). -/
theorem State.wordActed_csu : ((s.wordOpened w).actOn w s.csu.frame).csu = { s.csu with
    frame := w.frame, boundaryAt := s.now, lossTimer := some s.now, cutSequence := w.cutSequence
    lastCut := if w.cutSequence = s.csu.cutSequence ∧ (∀ g, w.kind ≠ .cut g) then s.csu.lastCut else w.lastCut
    readinessGiven := ((s.wordOpened w).actOn w s.csu.frame).csu.readinessGiven
    desyncHold := ((s.wordOpened w).actOn w s.csu.frame).csu.desyncHold } := by
  obtain ⟨_, hcsu⟩ := (s.wordOpened w).actOn_within w s.csu.frame
  obtain ⟨hseq, hlast⟩ := State.actOn_sequence (s := s.wordOpened w) (w := w) (previous := s.csu.frame)
  have hopened : (s.wordOpened w).csu = { s.csu with frame := w.frame, boundaryAt := s.now, lossTimer := some s.now } := by
    rw [State.wordOpened_eq]
  rw [hcsu, hseq, hlast, hopened]

theorem State.wordActed_eq : (s.wordOpened w).actOn w s.csu.frame = { s with
    csu := ((s.wordOpened w).actOn w s.csu.frame).csu, bgNow := s.bg, rateNow := s.rate
    groups := ((s.wordOpened w).actOn w s.csu.frame).groups, ptab := ((s.wordOpened w).actOn w s.csu.frame).ptab
    sdir := ((s.wordOpened w).actOn w s.csu.frame).sdir, cvb := ((s.wordOpened w).actOn w s.csu.frame).cvb
    evb := ((s.wordOpened w).actOn w s.csu.frame).evb } := by
  obtain ⟨hacted, _⟩ := (s.wordOpened w).actOn_within w s.csu.frame
  rw [hacted, State.wordOpened_eq]

theorem State.evaluate_eq : s.evaluate = { s with
    ptab := s.evaluate.ptab, sdir := s.evaluate.sdir, cvb := s.evaluate.cvb, evb := s.evaluate.evb } := by
  rcases s.evaluate_cases with ⟨_, h⟩ | ⟨_, h⟩ <;> rw [h]
  rfl

end

/-- Settles O35: the word opens a boundary, acts by its kind, and the boundary ends as every one does (R95 to R101). -/
theorem lockedWordTaken : Obligations.LockedWordTaken := by
  unfold Obligations.LockedWordTaken
  refine ⟨fun s bytes w hword hrole hphase => (State.exec_syncWordArrival hword hrole).trans (congrArg _ (State.receiveWord_starting hphase)),
    fun s bytes w hword hrole hphase hsync => ?_⟩
  have hrow : exec (.syncWordArrival bytes) s = .next (s.takeWord w) :=
    (State.exec_syncWordArrival hword hrole).trans (congrArg _ (State.receiveWord_locked hphase hsync))
  have hone : s.GroupsInv → (s.wordOpened w).OneHeld := fun h => (State.groupsInv_iff.1 (h.wordOpened w)).1
  have hopened := State.wordOpened_awake (w := w) hphase
  have hacted := State.wordActed_eq (s := s) (w := w)
  have hcsu := State.wordActed_csu (s := s) (w := w)
  have htells : (s.wordOpened w).Tells [1, 2, 4, 9] ((s.wordOpened w).actOn w s.csu.frame) := State.actOn_tells _ w _
  obtain ⟨p, hp⟩ : ∃ p, p = (s.wordOpened w).actOn w s.csu.frame := ⟨_, rfl⟩
  rw [State.takeWord_eq, ← hp, State.finishBoundary_eq] at hrow
  rw [← hp] at hacted hcsu htells
  have hphase' : p.evaluate.phase ≠ .starting := by rw [State.evaluate_eq, hacted]; exact hphase
  have hevaluated : p.evaluate.csu = p.csu := by rw [State.evaluate_eq]
  have hended := State.endsBoundary_eq (s := p.evaluate) (flag := w.blackout) (f := w.frame)
  have htold : p.Tells [0, 6, 13, 14] (p.evaluate.endsBoundary w.blackout w.frame) :=
    (p.evaluate_tells.mono (by decide)).trans (State.endsBoundary_tells.mono (by decide))
  refine ⟨_, hrow, ?csu, fun hback => ?back, fun hflag hwas => ?blackout, ?tick, ?whole, fun hgroups => ?acts⟩
  case csu =>
    rw [State.endsBoundary_csu, hevaluated, hcsu]
  case back =>
    refine htold.isSome (htells.isSome ?_)
    rw [hopened]
    dsimp only
    rw [if_neg hback]
    exact Option.isSome_iff_exists.2 ⟨_, Evb.record_get s.evb (.desync .frameBack w.frame w.cutSequence s.csu.cutSequence [])⟩
  case blackout =>
    refine State.endsBoundary_blackout hphase' hflag ?_
    rw [hevaluated, hcsu]
    exact hwas
  case tick =>
    obtain ⟨r, hr, hdetail⟩ := State.endsBoundary_tick (s := p.evaluate) (flag := w.blackout) (f := w.frame) hphase'
    refine ⟨r, hr, hdetail.trans ?_⟩
    rw [hevaluated, hcsu]
  case whole =>
    rw [hended, p.evaluate_eq, hacted]
  case acts =>
    intro opened
    have hopened' : s.wordOpened w = opened := hopened
    have hrole' : (s.wordOpened w).clc.straps.role = .slave := by rw [State.wordOpened_eq]; exact hrole
    have hchecked := ((hgroups.wordOpened w).checkSequence hrole' w s.csu.frame)
    rw [hopened'] at hp hchecked
    have hone' : opened.OneHeld := hopened' ▸ hone hgroups
    have hone'' : (opened.checkSequence w s.csu.frame).OneHeld := (State.groupsInv_iff.1 hchecked).1
    cases hk : w.kind with
    | plain =>
      have hplain : p = opened.checkSequence w s.csu.frame := by rw [hp, State.actOn, hk]
      refine ⟨p, p, rfl, fun _ => ?_, fun _ => rfl, nofun, nofun, nofun⟩
      rw [hplain]
      exact hone'.checkSequence_checked
    | nominate g =>
      have hnominates : p = (opened.checkSequence w s.csu.frame).takeNominate g w := by rw [hp, State.actOn, hk]
      refine ⟨opened.checkSequence w s.csu.frame, p, rfl, fun _ => hone'.checkSequence_checked, nofun, fun _ hg => ?_, nofun, nofun⟩
      cases hg
      rw [hnominates]
      exact hone''.takeNominate_nominates
    | cut g =>
      have hcuts : p = opened.takeCut g w := by rw [hp, State.actOn, hk]
      refine ⟨opened, p, rfl, fun hnot => absurd rfl (hnot g), nofun, nofun, fun _ hg => ?_, nofun⟩
      cases hg
      rw [hcuts]
      exact State.takeCut_cutsBy
    | abandon g =>
      have habandons : p = (opened.checkSequence w s.csu.frame).takeAbandon g := by rw [hp, State.actOn, hk]
      refine ⟨opened.checkSequence w s.csu.frame, p, rfl, fun _ => hone'.checkSequence_checked, nofun, nofun, nofun, fun _ hg => ?_⟩
      cases hg
      rw [habandons]
      exact hone''.takeAbandon_abandonsBy

end Sys2Proof.Machine

/-! SUPPORT. A slave that counts words back to lock, the comparison of R105, and WordsCountedToRelock. -/

namespace Sys2Proof.Machine

/-! ### The comparison, case by case (R105) -/

section
variable {s o : State} {g : GroupId} {w : SyncWord} {f at' : Frame}

theorem State.OneHeld.compareAtRelock_same (hone : o.OneHeld) (hg : o.groupState g = .inDoubt f) (hsame : w.cutSequence = o.csu.cutSequence) :
    o.compareAtRelock .lost w = o.executeAbandon g := by
  unfold State.compareAtRelock State.compareLost
  rw [hone.inDoubtGroup_eq hg]
  exact if_pos hsame

theorem State.OneHeld.compareAtRelock_late (hone : o.OneHeld) (hg : o.groupState g = .inDoubt f)
    (hahead : w.cutSequence = o.csu.cutSequence + 1) (hlast : w.lastCut = some (g, at')) :
    o.compareAtRelock .lost w = o.executeCut g at' := by
  have hdiffers : w.cutSequence ≠ o.csu.cutSequence := by
    rw [hahead]
    exact succ_ne_sequence o.csu.cutSequence
  unfold State.compareAtRelock State.compareLost
  rw [hone.inDoubtGroup_eq hg, hlast]
  exact (if_neg hdiffers).trans (if_pos ⟨hahead, rfl⟩)

theorem State.OneHeld.compareAtRelock_gap (hone : o.OneHeld) (hg : o.groupState g = .inDoubt f) (hdiffers : w.cutSequence ≠ o.csu.cutSequence)
    (hnot : ∀ at', ¬ (w.cutSequence = o.csu.cutSequence + 1 ∧ w.lastCut = some (g, at'))) :
    o.compareAtRelock .lost w = ((o.desync .relockGap w [g]).releaseDoubt g).adoptSequence w := by
  unfold State.compareAtRelock State.compareLost
  rw [hone.inDoubtGroup_eq hg]
  refine (if_neg hdiffers).trans ?_
  cases hl : w.lastCut with
  | none => rfl
  | some last => exact if_neg fun ⟨hahead, hlast⟩ => hnot last.2 ⟨hahead, by rw [hl, ← hlast]⟩

theorem State.compareAtRelock_free (hnone : ∀ h e, o.groupState h ≠ .inDoubt e) : o.compareAtRelock .lost w
    = if w.cutSequence = o.csu.cutSequence then o else (o.desync .relockGap w []).adoptSequence w := by
  unfold State.compareAtRelock State.compareLost
  rw [State.inDoubtGroup_eq_none.2 hnone]

theorem State.desync_within (o : State) (reason : DesyncReason) (w : SyncWord) (gs : List GroupId) : o.ActsWithin (o.desync reason w gs) := ⟨rfl, rfl⟩

theorem State.releaseDoubt_within (o : State) (g : GroupId) : o.ActsWithin (o.releaseDoubt g) := ⟨rfl, rfl⟩

theorem State.adoptSequence_within (o : State) (w : SyncWord) : o.ActsWithin (o.adoptSequence w) := ⟨rfl, rfl⟩

/-- A group held IN_DOUBT let go, with the gap reported (R105, third row). -/
theorem State.letGo_within (o : State) (g : GroupId) (w : SyncWord) :
    o.ActsWithin (((o.desync .relockGap w [g]).releaseDoubt g).adoptSequence w) :=
  ((o.desync_within .relockGap w [g]).trans (State.releaseDoubt_within _ g)).trans (State.adoptSequence_within _ w)

theorem State.letGo_tells (o : State) (g : GroupId) (w : SyncWord) :
    o.Tells [1, 2, 4, 9] (((o.desync .relockGap w [g]).releaseDoubt g).adoptSequence w) :=
  ((o.desync_tells w .relockGap [g]).mono (by decide)).trans
    (State.tells_of_evb ((State.adoptSequence_evb _ w).trans (State.releaseDoubt_evb _ g)))

theorem State.letGo_fields (o : State) (g : GroupId) (w : SyncWord) {c : State}
    (hc : c = ((o.desync .relockGap w [g]).releaseDoubt g).adoptSequence w) :
    c.groups = o.groups.set g { o.groups.get g with state := .idle } ∧ c.ptab = o.ptab ∧ c.sdir = o.sdir ∧ c.cvb = o.cvb.dropFor g
      ∧ c.evb = o.told (.desync .relockGap w.frame w.cutSequence o.csu.cutSequence [g]) := by
  rw [hc]
  simp only [State.adoptSequence_groups, State.adoptSequence_ptab, State.adoptSequence_sdir, State.adoptSequence_cvb, State.adoptSequence_evb,
    State.releaseDoubt_groups, State.releaseDoubt_ptab, State.releaseDoubt_sdir, State.releaseDoubt_cvb, State.releaseDoubt_evb,
    State.desync_groups, State.desync_ptab, State.desync_sdir, State.desync_cvb, Table.modify_eq_set, true_and]
  rfl

/-- What the comparison may change, and the sequence it leaves (R105). -/
theorem State.compareAtRelock_within {was : SyncState} : o.ActsWithin (o.compareAtRelock was w) := by
  unfold State.compareAtRelock
  split
  · unfold State.compareLost
    split
    · split
      · exact .refl o
      · exact ⟨rfl, rfl⟩
    · split
      · exact o.executeAbandon_within _
      · split
        · split
          · exact o.executeCut_within _ _
          · exact o.letGo_within _ w
        · exact o.letGo_within _ w
  · exact ⟨rfl, rfl⟩
  · exact .refl o

theorem State.compareAtRelock_sequence {was : SyncState} (hwas : was ≠ .locked) :
    (o.compareAtRelock was w).csu.cutSequence = w.cutSequence
      ∧ (w.cutSequence ≠ o.csu.cutSequence ∨ was = .unlocked → (o.compareAtRelock was w).csu.lastCut = w.lastCut) := by
  have hsame : ∀ {t : State}, w.cutSequence = o.csu.cutSequence → t.csu.cutSequence = o.csu.cutSequence →
      t.csu.cutSequence = w.cutSequence ∧ (w.cutSequence ≠ o.csu.cutSequence ∨ SyncState.lost = .unlocked → t.csu.lastCut = w.lastCut) :=
    fun h ht => ⟨ht.trans h.symm, fun hd => hd.elim (absurd h ·) nofun⟩
  have hadopts : ∀ {t : State} {was : SyncState}, t.csu.cutSequence = w.cutSequence → t.csu.lastCut = w.lastCut →
      t.csu.cutSequence = w.cutSequence ∧ (w.cutSequence ≠ o.csu.cutSequence ∨ was = .unlocked → t.csu.lastCut = w.lastCut) :=
    fun hseq hlast => ⟨hseq, fun _ => hlast⟩
  unfold State.compareAtRelock
  split
  · unfold State.compareLost
    split
    · split
      · next h => exact hsame h rfl
      · exact hadopts rfl rfl
    · split
      · next h => exact hsame h State.executeAbandon_kept.1
      · split
        · next h f hl =>
          split
          · next hc =>
            obtain ⟨hahead, rfl⟩ := hc
            exact hadopts ((o.executeCut_sequence _ _).trans hahead.symm) ((o.executeCut_lastCut _ _).trans hl.symm)
          · exact hadopts rfl rfl
        · exact hadopts rfl rfl
  · exact hadopts rfl rfl
  · exact absurd rfl hwas

theorem State.compareAtRelock_tells {was : SyncState} : o.Tells [1, 2, 4, 9] (o.compareAtRelock was w) := by
  have hgap : ∀ gs, o.Tells [1, 2, 4, 9] (o.desync .relockGap w gs) := fun gs => (o.desync_tells w _ gs).mono (by decide)
  unfold State.compareAtRelock
  split
  · unfold State.compareLost
    split
    · split
      · exact State.tells_of_evb rfl
      · exact (hgap []).trans (State.tells_of_evb rfl)
    · split
      · exact (o.executeAbandon_tells _).mono (by decide)
      · split
        · split
          · exact (o.executeCut_tells _ _).mono (by decide)
          · exact o.letGo_tells _ w
        · exact o.letGo_tells _ w
  · exact State.tells_of_evb rfl
  · exact State.tells_of_evb rfl

/-- The end of the comparison where no group is left held. -/
theorem State.endComparison_free (hnone : ∀ h, ¬ (o.groupState h).Locks) :
    o.endComparison = { o with csu := { o.csu with readinessGiven := false, desyncHold := none } } := by
  have hheld : State.heldGroup { o with csu := { o.csu with readinessGiven := false } } = none := State.heldGroup_eq_none.2 hnone
  unfold State.endComparison
  rw [State.settleHold_eq, if_pos hheld]

end

/-! ### The part compared -/

section
variable {s : State} {w : SyncWord} {g : GroupId} {f : Frame}

theorem State.GroupsInv.compareAtRelock_idle (h : s.GroupsInv) (hrole : s.clc.straps.role = .slave) (hsync : s.csu.sync ≠ .locked) (k : GroupId) :
    ¬ (((s.lockOpened w).compareAtRelock s.csu.sync w).groupState k).Locks := by
  have hidle := h.lockCompared_idle hrole hsync w k
  rw [State.lockCompared, State.endComparison_groupState] at hidle
  rw [hidle]
  exact GroupState.not_locks_idle

/-- The part after the comparison, but for what the comparison makes of the groups, the records and the reports (R105). -/
theorem State.GroupsInv.lockCompared_eq (h : s.GroupsInv) (hrole : s.clc.straps.role = .slave) (hsync : s.csu.sync ≠ .locked) :
    ∃ c : State, c = (s.lockOpened w).compareAtRelock s.csu.sync w ∧ s.lockCompared w = { s with
      bgNow := s.bg, rateNow := s.rate, groups := c.groups, ptab := c.ptab, sdir := c.sdir, cvb := c.cvb, evb := c.evb
      csu := { s.csu with
        frame := w.frame, boundaryAt := s.now, sync := .locked, lockRun := 0, lastCounted := none, lossTimer := some s.now
        timing := false, cutSequence := w.cutSequence, lastCut := c.csu.lastCut, readinessGiven := false, desyncHold := none } }
      ∧ (w.cutSequence ≠ s.csu.cutSequence ∨ s.csu.sync = .unlocked → c.csu.lastCut = w.lastCut) := by
  obtain ⟨hwithin, hcsu⟩ := State.compareAtRelock_within (o := s.lockOpened w) (w := w) (was := s.csu.sync)
  obtain ⟨hseq, hlast⟩ := State.compareAtRelock_sequence (o := s.lockOpened w) (w := w) hsync
  have hfree := h.compareAtRelock_idle hrole hsync (w := w)
  refine ⟨_, rfl, ?_, hlast⟩
  unfold State.lockCompared
  rw [State.endComparison_free hfree]
  generalize (s.lockOpened w).compareAtRelock s.csu.sync w = c at hwithin hcsu hseq
  rw [hcsu, hseq, hwithin]
  rfl

/-- The re-lock forgets what was counted (R104). -/
theorem State.countWord_relock : (s.countWord w).relock w = s.relock w := by
  have hopened : (s.countWord w).lockOpened w = s.lockOpened w := rfl
  rw [State.relock_eq, State.relock_eq, State.lockCompared, State.lockCompared, hopened]
  rfl

/-- The relocking word acted on where no group is held: a NOMINATE nominates, any other word does nothing (R106). -/
theorem State.actAtRelock_nominate (hnone : ∀ h, ¬ (s.groupState h).Locks) (hgiven : s.csu.readinessGiven = false) (hk : w.kind = .nominate g) :
    s.actAtRelock w = { s with
      groups := s.groups.set g { s.groups.get g with state := .nominated w.frame }, cvb := s.cvb.begin s.held g } := by
  have hcsu : ({ s.csu with readinessGiven := false } : Csu) = s.csu := by rw [← hgiven]
  unfold State.actAtRelock
  rw [hk]
  refine (State.takeNominate_free hnone).trans ?_
  unfold State.nominate State.setGroupState
  rw [hcsu]
  rfl

theorem State.actAtRelock_other (hidle : ∀ h, s.groupState h = .idle) (hk : ∀ g, w.kind ≠ .nominate g) : s.actAtRelock w = s := by
  have hnone : ∀ h, ¬ (s.groupState h).Locks := fun h => by rw [hidle h]; exact GroupState.not_locks_idle
  unfold State.actAtRelock
  split
  · rfl
  · next g hg => exact absurd hg (hk g)
  · rfl
  · unfold State.takeAbandon
    rw [hidle, State.heldGroup_eq_none.2 hnone]
    exact ite_self _

/-! ### Counting (R104) -/

theorem State.followsCounted_iff : s.followsCounted f = true ↔ ∃ f' time, s.csu.lastCounted = some (f', time) ∧ f = f' + 1
    ∧ s.now - time < 3 * (Config.ticksPerSecond / s.rateNow.hertz) := by
  unfold State.followsCounted
  cases s.csu.lastCounted with
  | none => exact ⟨nofun, fun ⟨_, _, h, _⟩ => nomatch h⟩
  | some last =>
    obtain ⟨f', time⟩ := last
    simp only [Bool.and_eq_true, decide_eq_true_eq]
    constructor
    · rintro ⟨hf, htime⟩
      exact ⟨f', time, rfl, hf, htime⟩
    · rintro ⟨_, _, h, hf, htime⟩
      cases h
      exact ⟨hf, htime⟩

theorem State.countedRun_eq {run : Nat} (h : s.CountsTo w run) : s.countedRun w.frame = run := by
  obtain ⟨hfirst, hnext⟩ := h
  unfold State.countedRun
  split
  · next h0 => exact (hfirst (.inl h0)).symm
  · next h0 =>
    split
    · next hf => exact (hnext h0 (State.followsCounted_iff.1 hf)).symm
    · next hf => exact (hfirst (.inr fun hex => hf (State.followsCounted_iff.2 hex))).symm

theorem State.countTowardLock_counts {run : Nat} (h : s.CountsTo w run) (hrun : run < 4) :
    s.countTowardLock w = (s.countWord w).handOver w.blackout w.frame := by
  have hlockRun : (s.countWord w).csu.lockRun = run := State.countedRun_eq h
  have hcount : (s.countWord w).csu.lockRun < 4 := by rw [hlockRun]; exact hrun
  exact if_pos hcount

theorem State.countTowardLock_locks {run : Nat} (h : s.CountsTo w run) (hrun : 4 ≤ run) : s.countTowardLock w = s.relock w := by
  have hlockRun : (s.countWord w).csu.lockRun = run := State.countedRun_eq h
  have hcount : ¬ (s.countWord w).csu.lockRun < 4 := by rw [hlockRun]; exact Nat.not_lt.2 hrun
  exact (if_neg hcount).trans State.countWord_relock

theorem State.countWord_handOver {run : Nat} (h : s.CountsTo w run) (hphase : s.phase ≠ .starting) :
    (s.countWord w).handOver w.blackout w.frame = { s with
      csu := { s.csu with lockRun := run, lastCounted := some (w.frame, s.now), blackoutFlag := w.blackout }
      evb := if w.blackout && !s.csu.blackoutFlag then s.evb.record (.blackout w.frame) else s.evb } := by
  have htold : (s.countWord w).told (.blackout w.frame) = s.evb.record (.blackout w.frame) := if_neg hphase
  rw [State.handOver_eq, htold, State.countWord_csu, State.countedRun_eq h]
  rfl

end

section
variable {s : State} {w : SyncWord} {g : GroupId} {f at' : Frame}

/-- The part just back in lock, SYNC_REGAINED reported (R105). -/
theorem State.lockOpened_evb (h : s.phase ≠ .starting) : (s.lockOpened w).evb = s.evb.record (.syncRegained w.frame) := if_neg h

/-- What the comparison makes of a group held IN_DOUBT whose sequence is the word's (R105, first row). -/
theorem State.GroupsInv.compared_same (h : s.GroupsInv) (hwas : s.csu.sync = .lost) (hg : s.groupState g = .inDoubt f)
    (hsame : w.cutSequence = s.csu.cutSequence) {c : State} (hc : c = (s.lockOpened w).compareAtRelock s.csu.sync w) :
    c.groups = s.groups.set g ((s.groups.get g).ended none) ∧ c.ptab = s.ptab ∧ c.sdir = s.sdir
      ∧ c.cvb = (if s.cvb.prep = .inFlight g ∨ s.cvb.prep = .complete g then ⟨s.cvb.active, Table.replicate 16 none, .none⟩ else s.cvb)
      ∧ c.evb = (s.lockOpened w).told (.commitAbandoned g w.frame) := by
  have hone : (s.lockOpened w).OneHeld := (State.groupsInv_iff.1 h).1
  have hlocks : ((s.lockOpened w).groupState g).Locks := .of_inDoubt hg
  rw [hwas, hone.compareAtRelock_same hg hsame, hone.executeAbandon_eq hlocks] at hc
  rw [hc]
  exact ⟨rfl, rfl, rfl, rfl, rfl⟩

/-- A cut reads of the records, the surfaces, the lists and the geometry alone (R79 to R84). -/
theorem State.executeCut_congr {o : State} (hptab : o.ptab = s.ptab) (hsdir : o.sdir = s.sdir) (hcvb : o.cvb = s.cvb) (hheld : o.held = s.held) :
    (o.executeCut g f).ptab = (s.executeCut g f).ptab ∧ (o.executeCut g f).sdir = (s.executeCut g f).sdir
      ∧ (o.executeCut g f).cvb = (s.executeCut g f).cvb := by
  have hrecords : ∀ u : State, (u.executeCut g f).ptab = u.ptab.mapIdx fun _ r => (r.cutAt g f).1 := fun _ => rfl
  have hcounts : ∀ u : State, (u.executeCut g f).sdir = u.sdir.mapIdx fun i r =>
      { r with refs := r.refs - ((List.finRange 128).flatMap fun j => ((u.ptab.get j).cutAt g f).2).count i } := fun _ => rfl
  have hlists : ∀ u : State, (u.executeCut g f).cvb = (u.cvb.cut u.held (u.ptab.mapIdx fun _ r => (r.cutAt g f).1) g).without
      ((List.finRange 128).filter fun i => u.ptab.get i ≠ .free && ((u.ptab.get i).cutAt g f).1 = .free) := fun _ => rfl
  rw [hrecords, hrecords, hcounts, hcounts, hlists, hlists, hptab, hsdir, hcvb, hheld]
  exact ⟨rfl, rfl, rfl⟩

theorem State.executeCut_evb_congr {o : State} (hcvb : (o.executeCut g f).cvb = (s.executeCut g f).cvb) (hphase : o.phase = s.phase)
    (hseq : o.csu.cutSequence = s.csu.cutSequence) (hevb : o.evb = s.evb) : (o.executeCut g f).evb = (s.executeCut g f).evb := by
  rw [State.executeCut_evb_eq, State.executeCut_evb_eq, hcvb]
  simp only [State.told, hphase, hseq, hevb]

/-- The second row of R105: the group is cut late. -/
theorem State.GroupsInv.compared_late (h : s.GroupsInv) (hwas : s.csu.sync = .lost) (hg : s.groupState g = .inDoubt f)
    (hahead : w.cutSequence = s.csu.cutSequence + 1) (hlast : w.lastCut = some (g, at')) {c : State}
    (hc : c = (s.lockOpened w).compareAtRelock s.csu.sync w) :
    c.groups = s.groups.set g ((s.groups.get g).ended (some at')) ∧ c.ptab = (s.executeCut g at').ptab
      ∧ c.sdir = (s.executeCut g at').sdir ∧ c.cvb = (s.executeCut g at').cvb
      ∧ c.evb = (State.executeCut g at' { s with evb := (s.lockOpened w).evb }).evb := by
  have hone : (s.lockOpened w).OneHeld := (State.groupsInv_iff.1 h).1
  rw [hwas, hone.compareAtRelock_late hg hahead hlast] at hc
  obtain ⟨hptab, hsdir, hcvb⟩ := State.executeCut_congr (s := s) (o := s.lockOpened w) (g := g) (f := at') rfl rfl rfl rfl
  obtain ⟨_, _, hcvb'⟩ := State.executeCut_congr (s := { s with evb := (s.lockOpened w).evb }) (o := s.lockOpened w) (g := g) (f := at') rfl rfl rfl rfl
  have hevb := State.executeCut_evb_congr (s := { s with evb := (s.lockOpened w).evb }) hcvb' rfl rfl rfl
  rw [hc]
  exact ⟨State.executeCut_groups_eq, hptab, hsdir, hcvb, hevb⟩

/-- The third row of R105: the group is let go, and the gap reported. -/
theorem State.GroupsInv.compared_gap (h : s.GroupsInv) (hwas : s.csu.sync = .lost) (hg : s.groupState g = .inDoubt f)
    (hdiffers : w.cutSequence ≠ s.csu.cutSequence) (hnot : ∀ at', ¬ (w.cutSequence = s.csu.cutSequence + 1 ∧ w.lastCut = some (g, at')))
    {c : State} (hc : c = (s.lockOpened w).compareAtRelock s.csu.sync w) :
    c.groups = s.groups.set g { s.groups.get g with state := .idle } ∧ c.ptab = s.ptab ∧ c.sdir = s.sdir
      ∧ c.cvb = (if s.cvb.prep = .inFlight g ∨ s.cvb.prep = .complete g then ⟨s.cvb.active, Table.replicate 16 none, .none⟩ else s.cvb)
      ∧ c.evb = (s.lockOpened w).told (.desync .relockGap w.frame w.cutSequence s.csu.cutSequence [g]) := by
  have hone : (s.lockOpened w).OneHeld := (State.groupsInv_iff.1 h).1
  have hprep : s.cvb.prep.group = some g ↔ s.cvb.prep = .inFlight g ∨ s.cvb.prep = .complete g := by
    cases s.cvb.prep <;> simp [Prep.group]
  rw [hwas, hone.compareAtRelock_gap hg hdiffers hnot] at hc
  obtain ⟨hgroups, hptab, hsdir, hcvb, hevb⟩ := (s.lockOpened w).letGo_fields g w hc
  exact ⟨hgroups, hptab, hsdir, hcvb.trans (if_congr hprep rfl rfl), hevb⟩

/-- No group held: the fourth and the fifth row of R105. -/
theorem State.compared_free (hsync : s.csu.sync ≠ .locked) (hnone : ∀ h, ¬ (s.groupState h).Locks) {c : State}
    (hc : c = (s.lockOpened w).compareAtRelock s.csu.sync w) :
    c.groups = s.groups ∧ c.ptab = s.ptab ∧ c.sdir = s.sdir ∧ c.cvb = s.cvb
      ∧ c.evb = if s.csu.sync = .lost ∧ w.cutSequence ≠ s.csu.cutSequence then
          (s.lockOpened w).told (.desync .relockGap w.frame w.cutSequence s.csu.cutSequence []) else (s.lockOpened w).evb := by
  have hfree : ∀ h e, (s.lockOpened w).groupState h ≠ .inDoubt e := fun h e hg => hnone h (.of_inDoubt hg)
  cases hwas : s.csu.sync with
  | locked => exact absurd hwas hsync
  | unlocked =>
    rw [hwas] at hc
    rw [hc, if_neg nofun]
    exact ⟨rfl, rfl, rfl, rfl, rfl⟩
  | lost =>
    rw [hwas, State.compareAtRelock_free hfree] at hc
    by_cases hsame : w.cutSequence = s.csu.cutSequence
    · replace hc := hc.trans (if_pos hsame)
      rw [hc, if_neg fun hd => hd.2 hsame]
      exact ⟨rfl, rfl, rfl, rfl, rfl⟩
    · replace hc := hc.trans (if_neg hsame)
      rw [hc, if_pos ⟨rfl, hsame⟩]
      exact ⟨rfl, rfl, rfl, rfl, rfl⟩

end

/-- Settles O40: a word is counted, and the fourth is a boundary that opens back in lock, compares, and acts (R104 to R106). -/
theorem wordsCountedToRelock : Obligations.WordsCountedToRelock := by
  unfold Obligations.WordsCountedToRelock
  refine ⟨fun s bytes w run hword hrole hphase hsync hrun hcounts => ?_, fun s bytes w run hword hrole hphase hsync hrun hcounts hgroups => ?_⟩
  · refine (State.exec_syncWordArrival hword hrole).trans (congrArg _ ?_)
    rw [State.receiveWord_unlocked hphase hsync, State.countTowardLock_counts hcounts hrun, State.countWord_handOver hcounts hphase]
  have hrow : exec (.syncWordArrival bytes) s = .next (((s.lockCompared w).evaluate.actAtRelock w).endsBoundary w.blackout w.frame) := by
    refine (State.exec_syncWordArrival hword hrole).trans (congrArg _ ?_)
    rw [State.receiveWord_unlocked hphase hsync, State.countTowardLock_locks hcounts hrun, State.relock_eq]
    rfl
  obtain ⟨c, hc, hk, hlast⟩ := hgroups.lockCompared_eq (w := w) hrole hsync
  have hidle := hgroups.lockCompared_idle hrole hsync w
  have hregained : (s.lockOpened w).evb = s.evb.record (.syncRegained w.frame) := State.lockOpened_evb hphase
  have hback : ∀ d, (s.lockOpened w).told d = State.told { s with evb := s.evb.record (.syncRegained w.frame) } d := fun d => by
    unfold State.told
    rw [hregained]
    rfl
  have hcTells : (s.lockOpened w).Tells [1, 2, 4, 9] c := hc ▸ State.compareAtRelock_tells
  have hdoubt : ∀ g f, s.groupState g = .inDoubt f → s.csu.sync = .lost := by
    obtain ⟨_, _, hslave⟩ := State.groupsInv_iff.1 hgroups
    obtain ⟨_, _, _, _, hlost⟩ := hslave hrole
    exact hlost
  have hsame := fun g f hg hs => hgroups.compared_same (w := w) (g := g) (f := f) (hdoubt g f hg) hg hs hc
  have hlate := fun g f at' hg ha hl => hgroups.compared_late (w := w) (g := g) (f := f) (at' := at') (hdoubt g f hg) hg ha hl hc
  have hgap := fun g f hg hd hn => hgroups.compared_gap (w := w) (g := g) (f := f) (hdoubt g f hg) hg hd hn hc
  have hfree := fun hnone => State.compared_free (w := w) hsync hnone hc
  obtain ⟨k, hk'⟩ : ∃ k, k = s.lockCompared w := ⟨_, rfl⟩
  rw [← hk'] at hrow hk hidle
  have hnone : ∀ h, ¬ (k.evaluate.groupState h).Locks := fun h => by
    rw [(State.sameGroups_evaluate k).state, hidle]
    exact GroupState.not_locks_idle
  have hkgiven : k.evaluate.csu.readinessGiven = false := by rw [State.evaluate_eq, hk]
  obtain ⟨m, hm⟩ : ∃ m, m = k.evaluate.actAtRelock w := ⟨_, rfl⟩
  rw [← hm] at hrow
  have hnominates : ∀ g, w.kind = .nominate g → m = { k.evaluate with
      groups := k.evaluate.groups.set g { k.evaluate.groups.get g with state := .nominated w.frame }, cvb := k.evaluate.cvb.begin k.evaluate.held g } :=
    fun g hg => hm.trans (State.actAtRelock_nominate hnone hkgiven hg)
  have hothers : (∀ g, w.kind ≠ .nominate g) → m = k.evaluate := fun hn =>
    hm.trans (State.actAtRelock_other (fun h => by rw [(State.sameGroups_evaluate k).state, hidle]) hn)
  obtain ⟨hmcsu, hmevb, hmwhole⟩ : m.csu = k.csu ∧ m.evb = k.evaluate.evb
      ∧ m = { k with groups := m.groups, ptab := m.ptab, sdir := m.sdir, cvb := m.cvb, evb := m.evb } := by
    by_cases hn : ∃ g, w.kind = .nominate g
    · obtain ⟨g, hg⟩ := hn
      rw [hnominates g hg, k.evaluate_eq]
      exact ⟨rfl, rfl, rfl⟩
    · rw [hothers fun g hg => hn ⟨g, hg⟩, k.evaluate_eq]
      exact ⟨rfl, rfl, rfl⟩
  have htold : k.Tells [0, 6, 13, 14] (m.endsBoundary w.blackout w.frame) :=
    ((k.evaluate_tells.mono (by decide)).trans (State.tells_of_evb hmevb)).trans (State.endsBoundary_tells.mono (by decide))
  have htcsu : (m.endsBoundary w.blackout w.frame).csu = { k.csu with
      blackoutFlag := w.blackout, rdyReleased := m.rdyConditions, readinessGiven := k.csu.readinessGiven || m.rdyConditions } := by
    rw [State.endsBoundary_csu, hmcsu]
  have hkgroups : k.groups = c.groups := by rw [hk]
  have hkptab : k.ptab = c.ptab := by rw [hk]
  have hksdir : k.sdir = c.sdir := by rw [hk]
  have hkcvb : k.cvb = c.cvb := by rw [hk]
  have hkevb : k.evb = c.evb := by rw [hk]
  refine ⟨_, hrow, ?csu, fun h => ?last, ?report, ?whole, k, m, rfl, ?k, fun g f hg => ⟨fun hs => ?same, fun at' hl => ?late, fun hd hn => ?gap⟩,
    fun hn => ?free, fun g hg => ?nominate, hothers⟩
  case csu => rw [htcsu, hk]
  case last =>
    rw [htcsu, hk]
    exact hlast h
  case report =>
    refine ⟨_, ?_, FlagRec.after_detail (.syncRegained w.frame) (s.evb.flags.get 11)⟩
    rw [htold.get (by decide), hkevb, hcTells.get (by decide), hregained]
    exact Evb.record_get _ _
  case whole => rw [State.endsBoundary_eq, hmwhole, hk]
  case k =>
    rw [htcsu, hk]
  case same =>
    obtain ⟨hgroups', hptab, hsdir, hcvb, hevb⟩ := hsame g f hg hs
    exact ⟨hkgroups.trans hgroups', hkptab.trans hptab, hksdir.trans hsdir, hkcvb.trans hcvb, hkevb.trans (hevb.trans (hback _))⟩
  case late =>
    obtain ⟨hgroups', hptab, hsdir, hcvb, hevb⟩ := hlate g f at' hg hl.1 hl.2
    rw [hregained] at hevb
    exact ⟨hkgroups.trans hgroups', hkptab.trans hptab, hksdir.trans hsdir, hkcvb.trans hcvb, hkevb.trans hevb⟩
  case gap =>
    obtain ⟨hgroups', hptab, hsdir, hcvb, hevb⟩ := hgap g f hg hd hn
    exact ⟨hkgroups.trans hgroups', hkptab.trans hptab, hksdir.trans hsdir, hkcvb.trans hcvb, hkevb.trans (hevb.trans (hback _))⟩
  case free =>
    obtain ⟨hgroups', hptab, hsdir, hcvb, hevb⟩ := hfree hn
    rw [hback, hregained] at hevb
    exact ⟨hkgroups.trans hgroups', hkptab.trans hptab, hksdir.trans hsdir, hkcvb.trans hcvb, hkevb.trans hevb⟩
  case nominate =>
    have hevaluated : k.evaluate.groups = k.groups ∧ k.evaluate.held = s.held := by
      rw [k.evaluate_eq, hk]
      exact ⟨rfl, rfl⟩
    rw [hnominates g hg, hevaluated.1, hevaluated.2]

end Sys2Proof.Machine

/-! SUPPORT. What the boundary of a word leaves of the groups, and WordsMoveGroups. -/

namespace Sys2Proof.Machine

/-! ### RDY where it cannot be released (R100) -/

section
variable {s : State} {flag : Bool} {f : Frame}

theorem State.rdyConditions_of_held (h : s.csu.desyncHold ≠ none) : s.rdyConditions = false := by
  unfold State.rdyConditions
  rw [decide_eq_false h, Bool.and_false]

theorem State.rdyConditions_of_unnominated (h : ∀ k n, s.groupState k ≠ .nominated n) : s.rdyConditions = false := by
  unfold State.rdyConditions
  rw [State.nominatedGroup_eq_none.2 h, Bool.and_false, Bool.false_and]

/-! ### The boundary's end, read group by group -/

theorem State.finishBoundary_groups : (s.finishBoundary flag f).groups = s.groups := by
  rw [State.finishBoundary_eq, State.endsBoundary_eq, State.evaluate_eq]

theorem State.finishBoundary_csu : (s.finishBoundary flag f).csu = { s.csu with
    blackoutFlag := flag, rdyReleased := s.evaluate.rdyConditions
    readinessGiven := s.csu.readinessGiven || s.evaluate.rdyConditions } := by
  have hevaluated : s.evaluate.csu = s.csu := by rw [State.evaluate_eq]
  rw [State.finishBoundary_eq, State.endsBoundary_csu, hevaluated]

theorem State.finishBoundary_tells : s.Tells [0, 6, 13, 14] (s.finishBoundary flag f) :=
  (s.evaluate_tells.mono (by decide)).trans (State.endsBoundary_tells.mono (by decide))

theorem State.coverageAfter_group (sel : Selection) : (s.coverageAfter sel f).prep.group = s.cvb.prep.group := by
  by_cases h : s.BeginsAgain sel f
  · rw [State.coverageAfter_restarts h, Cvb.restart_group]
    rfl
  · rw [State.coverageAfter_deletes h]
    rfl

theorem State.finishBoundary_group : (s.finishBoundary flag f).cvb.prep.group = s.cvb.prep.group := by
  have hended : (s.finishBoundary flag f).cvb = s.evaluate.cvb := by rw [State.finishBoundary_eq, State.endsBoundary_eq]
  rw [hended]
  rcases s.evaluate_cases with ⟨_, h⟩ | ⟨_, h⟩ <;> rw [h]
  exact State.coverageAfter_group _

/-- Where the part holds RDY after the boundary, readiness stays as it was. -/
theorem State.finishBoundary_held (h : s.csu.desyncHold ≠ none ∨ ∀ k n, s.groupState k ≠ .nominated n) :
    (s.finishBoundary flag f).csu.rdyReleased = false
      ∧ (s.finishBoundary flag f).csu.readinessGiven = s.csu.readinessGiven := by
  have hconditions : s.evaluate.rdyConditions = false := by
    rcases h with h | h
    · exact State.rdyConditions_of_held (by rw [State.evaluate_eq]; exact h)
    · exact State.rdyConditions_of_unnominated fun k n => by rw [s.sameGroups_evaluate.state]; exact h k n
  rw [State.finishBoundary_csu, hconditions, Bool.or_false]
  exact ⟨rfl, rfl⟩

end

/-! ### What the boundary of each outcome leaves -/

section
variable {u : State} {g h : GroupId} {w : SyncWord} {flag : Bool} {f at' : Frame}

theorem State.OneHeld.free_after_abandon (hone : u.OneHeld) (hh : (u.groupState h).Locks) (k : GroupId) :
    ¬ ((u.executeAbandon h).groupState k).Locks := by
  rw [State.executeAbandon_groupState]
  split
  · exact GroupState.not_locks_idle
  · next hne => exact fun hk => hne (hone h k hh hk)

theorem State.OneHeld.free_after_cut (hone : u.OneHeld) (hh : (u.groupState h).Locks) (k : GroupId) :
    ¬ ((u.executeCut h at').groupState k).Locks := by
  rw [State.executeCut_groupState]
  split
  · exact GroupState.not_locks_idle
  · next hne => exact fun hk => hne (hone h k hh hk)

/-- The one group held is abandoned (R85). -/
theorem State.OneHeld.finish_abandoned (hone : u.OneHeld) (hh : (u.groupState h).Locks) :
    ((u.executeAbandon h).finishBoundary flag f).groups = u.groups.set h ((u.groups.get h).ended none)
      ∧ ((u.executeAbandon h).finishBoundary flag f).csu.readinessGiven = false
      ∧ ((u.executeAbandon h).finishBoundary flag f).csu.desyncHold = none
      ∧ ((u.executeAbandon h).finishBoundary flag f).csu.rdyReleased = false := by
  have hfree := hone.free_after_abandon hh
  obtain ⟨hreleased, hgiven⟩ := State.finishBoundary_held (s := u.executeAbandon h) (flag := flag) (f := f)
    (.inr fun k n hk => hfree k (.of_nominated hk))
  have hwhole := hone.executeAbandon_eq hh
  refine ⟨?_, hgiven.trans ?_, ?_, hreleased⟩
  · rw [State.finishBoundary_groups, hwhole]
  · rw [hwhole]
  · rw [State.finishBoundary_csu, hwhole]

/-- A nomination refused: RDY is held for it (R97). -/
theorem State.OneHeld.finish_refused (hone : u.OneHeld) (hh : (u.groupState h).Locks) (hphase : u.phase ≠ .starting) :
    ((u.takeNominate g w).finishBoundary flag f).groups = u.groups
      ∧ ((u.takeNominate g w).finishBoundary flag f).csu.desyncHold = some g
      ∧ ((u.takeNominate g w).finishBoundary flag f).csu.rdyReleased = false
      ∧ (((u.takeNominate g w).finishBoundary flag f).evb.flags.get 4).isSome = true := by
  have hwhole := hone.takeNominate_refused (g := g) (w := w) hh
  have hhold : (u.takeNominate g w).csu.desyncHold = some g := by rw [hwhole]
  refine ⟨?_, ?_, (State.finishBoundary_held (.inl (by rw [hhold]; nofun))).1, State.finishBoundary_tells.isSome ?_⟩
  · rw [State.finishBoundary_groups, hwhole]
  · rw [State.finishBoundary_csu]
    exact hhold
  · obtain ⟨r, hr, _⟩ := State.told_get (s := u) (d := .desync .secondNomination w.frame w.cutSequence u.csu.cutSequence [g, h]) hphase
    rw [hwhole]
    exact Option.isSome_iff_exists.2 ⟨r, hr⟩

/-- A nomination taken (R97). -/
theorem State.finish_nominated (hfree : ∀ k, ¬ (u.groupState k).Locks) :
    ((u.takeNominate g w).finishBoundary flag f).groups = u.groups.set g { u.groups.get g with state := .nominated w.frame }
      ∧ ((u.takeNominate g w).finishBoundary flag f).cvb.prep.group = some g := by
  have hwhole := State.takeNominate_free (g := g) (w := w) hfree
  refine ⟨?_, ?_⟩
  · rw [State.finishBoundary_groups, hwhole]
    rfl
  · rw [State.finishBoundary_group, hwhole, State.nominate_cvb]
    exact Cvb.begin_group _ _ _

end

/-- A slave's part that a word opens, as the check of R96 finds it: the groups of the part before. -/
theorem State.wordOpened_fields (s : State) (w : SyncWord) : (s.wordOpened w).groups = s.groups
    ∧ (s.wordOpened w).csu.cutSequence = s.csu.cutSequence ∧ (s.wordOpened w).csu.readinessGiven = s.csu.readinessGiven
    ∧ (s.wordOpened w).csu.desyncHold = s.csu.desyncHold ∧ (s.wordOpened w).phase = s.phase := by
  rw [State.wordOpened_eq]
  exact ⟨rfl, rfl, rfl, rfl, rfl⟩

/-- The part that has reported a gap and taken the word's sequence (R96, last row). -/
def State.gapped (w : SyncWord) (o : State) : State := (o.desync .sequence w []).adoptSequence w

section
variable {o : State} {w : SyncWord} {h : GroupId}

theorem State.gapped_groups : (o.gapped w).groups = o.groups := by
  rw [State.gapped, State.adoptSequence_groups, State.desync_groups]

theorem State.gapped_groupState (k : GroupId) : (o.gapped w).groupState k = o.groupState k := by
  rw [State.groupState, State.gapped_groups]
  rfl

theorem State.gapped_hold : (o.gapped w).csu.desyncHold = o.csu.desyncHold := rfl

theorem State.OneHeld.gapped (hone : o.OneHeld) : (o.gapped w).OneHeld := fun a b ha hb => by
  rw [State.gapped_groupState] at ha hb
  exact hone a b ha hb

theorem State.gapped_reported (hphase : o.phase ≠ .starting) : ((o.gapped w).evb.flags.get 4).isSome = true := by
  obtain ⟨r, hr, _⟩ := State.told_get (s := o) (d := .desync .sequence w.frame w.cutSequence o.csu.cutSequence []) hphase
  exact Option.isSome_iff_exists.2 ⟨r, hr⟩

end

/-- Settles O36: the check of the word by its sequence and what is held, then its kind, each on what the check leaves (R96 to R99). -/
theorem wordsMoveGroups : Obligations.WordsMoveGroups := by
  unfold Obligations.WordsMoveGroups
  intro s t bytes w hword hrole hphase hsync hgroups hrow
  have ht : t = ((s.wordOpened w).actOn w s.csu.frame).finishBoundary w.blackout w.frame := by
    have hrow' := (State.exec_syncWordArrival hword hrole).trans (congrArg _ (State.receiveWord_locked hphase hsync))
    rw [hrow, State.takeWord_eq] at hrow'
    cases hrow'
    rfl
  obtain ⟨hog, hoseq, hogiven, hohold, hophase⟩ := s.wordOpened_fields w
  have hone : (s.wordOpened w).OneHeld := (State.groupsInv_iff.1 (hgroups.wordOpened w)).1
  generalize s.wordOpened w = o at ht hog hoseq hogiven hohold hophase hone
  have hstate : ∀ k, o.groupState k = s.groupState k := fun k => by rw [State.groupState, hog]; rfl
  have hphase' : o.phase ≠ .starting := by rw [hophase]; exact hphase
  have hofree : (∀ h, ¬ (s.groupState h).Locks) → ∀ h, ¬ (o.groupState h).Locks := fun hn h => by rw [hstate]; exact hn h
  have holds : ∀ h n, s.groupState h = .nominated n → (o.groupState h).Locks := fun h n hh => .of_nominated ((hstate h).trans hh)
  have habandoned : ∀ h, (o.groupState h).Locks → (o.executeAbandon h).groups = s.groups.set h ((s.groups.get h).ended none) := fun h hh => by
    rw [hone.executeAbandon_eq hh, hog]
  have hcut : ∀ h f, (o.executeCut h f).groups = s.groups.set h ((s.groups.get h).ended (some f)) := fun h f => by
    rw [State.executeCut_groups_eq, hog]
    rfl
  have hgapped : (o.gapped w).groups = s.groups := State.gapped_groups.trans hog
  have hreported : ∀ u : State, (o.gapped w).Tells [1, 2, 4, 9] u → ((u.finishBoundary w.blackout w.frame).evb.flags.get 4).isSome = true :=
    fun u hu => State.finishBoundary_tells.isSome (hu.isSome (State.gapped_reported hphase'))
  -- the check of R96 by its outcomes
  have hinStep : w.cutSequence = s.csu.cutSequence → w.frame = s.csu.frame + 1 → o.checkSequence w s.csu.frame = o :=
    fun hs hf => State.checkSequence_inStep (hs.trans hoseq.symm) hf
  have hunheld : w.cutSequence = s.csu.cutSequence → (∀ h, ¬ (s.groupState h).Locks) → o.checkSequence w s.csu.frame = o :=
    fun hs hn => State.checkSequence_unheld (hs.trans hoseq.symm) fun h n hh => hn h (by rw [← hstate]; exact .of_nominated hh)
  have hmissed : ∀ h n, w.cutSequence = s.csu.cutSequence → w.frame ≠ s.csu.frame + 1 → s.groupState h = .nominated n →
      o.checkSequence w s.csu.frame = o.executeAbandon h :=
    fun h n hs hf hh => State.checkSequence_missed hone (hs.trans hoseq.symm) hf ((hstate h).trans hh)
  have hlate : ∀ h f, (w.cutSequence = s.csu.cutSequence + 1 ∧ w.lastCut = some (h, f) ∧ (∃ n, s.groupState h = .nominated n)
      ∧ s.csu.readinessGiven = true) → o.checkSequence w s.csu.frame = o.executeCut h f := fun h f ⟨ha, hl, ⟨n, hn⟩, hg⟩ =>
    State.checkSequence_late hone (by rw [hoseq]; exact ha) hl ((hstate h).trans hn) (hogiven.trans hg)
  have hapart : (¬ w.cutSequence = s.csu.cutSequence ∧ ∀ h f, ¬ (w.cutSequence = s.csu.cutSequence + 1 ∧ w.lastCut = some (h, f)
      ∧ (∃ n, s.groupState h = .nominated n) ∧ s.csu.readinessGiven = true)) → o.checkSequence w s.csu.frame = o.gapped w :=
    fun ⟨hd, hn⟩ => State.checkSequence_apart (by rw [hoseq]; exact hd) (by simpa only [hoseq, hogiven, hstate] using hn)
  refine ⟨fun g hk => ?nominate, fun g hk => ?cut, fun g hk => ?abandon, fun hk => ?plain⟩
  case nominate =>
    have hact : t = ((o.checkSequence w s.csu.frame).takeNominate g w).finishBoundary w.blackout w.frame := by rw [ht, State.actOn, hk]
    refine ⟨fun hs hn => ?_, fun h ⟨hs, hf⟩ ⟨n, hh⟩ => ?_, fun h ⟨hs, hf⟩ ⟨n, hh⟩ => ?_, fun h f hl => ?_, fun ha hn => ⟨?_, ?_⟩, fun h ha ⟨n, hh⟩ => ?_⟩
    · rw [hact, hunheld hs hn, ← hog]
      exact State.finish_nominated (hofree hn)
    · rw [hact, hinStep hs hf, ← hog]
      exact hone.finish_refused (holds h n hh) hphase'
    · rw [hact, hmissed h n hs hf hh]
      beta_reduce
      rw [← habandoned h (holds h n hh)]
      exact State.finish_nominated (hone.free_after_abandon (holds h n hh))
    · have ⟨_, _, ⟨n, hh⟩, _⟩ := hl
      rw [hact, hlate h f hl]
      beta_reduce
      rw [← hcut h f]
      exact State.finish_nominated (hone.free_after_cut (holds h n hh))
    · rw [hact, hapart ha, ← hgapped]
      exact State.finish_nominated fun k => by rw [State.gapped_groupState]; exact hofree hn k
    · rw [hact, hapart ha]
      exact hreported _ (State.takeNominate_tells _ g w)
    · rw [hact, hapart ha, ← hgapped]
      exact hone.gapped.finish_refused (by rw [State.gapped_groupState]; exact holds h n hh) hphase'
  case cut =>
    have hact : t = (o.takeCut g w).finishBoundary w.blackout w.frame := by rw [ht, State.actOn, hk]
    rw [hact, State.finishBoundary_groups]
    unfold State.takeCut
    rw [State.adoptSequence_groups]
    split
    · exact hcut g w.frame
    · rw [State.executeCut_groups_eq, State.desync_groups, hog]
      rfl
  case abandon =>
    have hact : t = ((o.checkSequence w s.csu.frame).takeAbandon g).finishBoundary w.blackout w.frame := by rw [ht, State.actOn, hk]
    have hself : ∀ {u : State}, u.OneHeld → ∀ n, u.groupState g = .nominated n → u.takeAbandon g = u.executeAbandon g := fun hu n hn =>
      (hu.takeAbandon_abandonsBy (g := g)).1 ⟨n, hn⟩
    have hrefused : ∀ {u : State}, u.OneHeld → ∀ h, u.groupState g = .idle → u.csu.desyncHold = some g → (u.groupState h).Locks →
        u.takeAbandon g = u.executeAbandon h := fun hu => (hu.takeAbandon_abandonsBy (g := g)).2.1
    have hnothing : ∀ {u : State}, u.OneHeld → (∀ n, u.groupState g ≠ .nominated n) →
        u.groupState g ≠ .idle ∨ u.csu.desyncHold ≠ some g ∨ (∀ h, ¬ (u.groupState h).Locks) → u.takeAbandon g = u := fun hu =>
      (hu.takeAbandon_abandonsBy (g := g)).2.2
    have hfreed : ∀ {u : State}, (∀ h, ¬ (u.groupState h).Locks) → u.takeAbandon g = u := fun hu =>
      hnothing (fun a _ ha => absurd ha (hu a)) (fun n hn => hu g (.of_nominated hn)) (.inr (.inr hu))
    have hidle : s.groupState g = .idle → ∀ n, o.groupState g ≠ .nominated n := fun hi n => by rw [hstate, hi]; nofun
    refine ⟨fun hs hn => ?_, fun ⟨hs, hf⟩ ⟨n, hg⟩ => ?_, fun h ⟨hs, hf⟩ hi hd ⟨n, hh⟩ => ?_, fun ⟨hs, hf⟩ hi hd => ?_, fun h ⟨hs, hf⟩ ⟨n, hh⟩ => ?_,
      fun h f hl => ?_, fun ha ⟨n, hg⟩ => ?_, fun h ha hi hd ⟨n, hh⟩ => ?_, fun ha hi hd => ?_⟩
    · rw [hact, hunheld hs hn, hfreed (hofree hn), State.finishBoundary_groups, hog]
    · rw [hact, hinStep hs hf, hself hone n ((hstate g).trans hg), ← hog]
      exact hone.finish_abandoned (holds g n hg)
    · rw [hact, hinStep hs hf, hrefused hone h ((hstate g).trans hi) (hohold.trans hd) (holds h n hh), ← hog]
      exact hone.finish_abandoned (holds h n hh)
    · rw [hact, hinStep hs hf, hnothing hone (hidle hi) (.inr (.inl (by rw [hohold]; exact hd))), State.finishBoundary_groups, hog]
    · rw [hact, hmissed h n hs hf hh, hfreed (hone.free_after_abandon (holds h n hh)), ← hog]
      exact hone.finish_abandoned (holds h n hh)
    · have ⟨_, _, ⟨n, hh⟩, _⟩ := hl
      rw [hact, hlate h f hl, hfreed (hone.free_after_cut (holds h n hh)), State.finishBoundary_groups]
      exact hcut h f
    · rw [hact, hapart ha]
      refine ⟨?_, hreported _ (State.takeAbandon_tells _ g)⟩
      rw [hself hone.gapped n ((State.gapped_groupState g).trans ((hstate g).trans hg)), ← hgapped]
      exact hone.gapped.finish_abandoned (by rw [State.gapped_groupState]; exact holds g n hg)
    · rw [hact, hapart ha]
      refine ⟨?_, hreported _ (State.takeAbandon_tells _ g)⟩
      have hlocks : ((o.gapped w).groupState h).Locks := by rw [State.gapped_groupState]; exact holds h n hh
      rw [hrefused hone.gapped h ((State.gapped_groupState g).trans ((hstate g).trans hi)) (hohold.trans hd) hlocks, ← hgapped]
      exact hone.gapped.finish_abandoned hlocks
    · rw [hact, hapart ha]
      refine ⟨?_, hreported _ (State.takeAbandon_tells _ g)⟩
      have hnot : (o.gapped w).csu.desyncHold ≠ some g ∨ ∀ h, ¬ ((o.gapped w).groupState h).Locks :=
        hd.imp (fun hd => by rw [State.gapped_hold, hohold]; exact hd) fun hn h => by rw [State.gapped_groupState]; exact hofree hn h
      rw [hnothing hone.gapped (fun n => by rw [State.gapped_groupState]; exact hidle hi n) (.inr hnot), State.finishBoundary_groups, hgapped]
  case plain =>
    have hact : t = (o.checkSequence w s.csu.frame).finishBoundary w.blackout w.frame := by rw [ht, State.actOn, hk]
    refine ⟨fun h => ?_, fun h ⟨hs, hf⟩ ⟨n, hh⟩ => ?_, fun h f hl => ?_, fun ha => ⟨?_, ?_⟩⟩
    · have hkept : o.checkSequence w s.csu.frame = o := h.elim (fun ⟨hs, hf⟩ => hinStep hs hf) fun ⟨hs, hn⟩ => hunheld hs hn
      rw [hact, hkept, State.finishBoundary_groups, hog]
    · rw [hact, hmissed h n hs hf hh, ← hog]
      exact hone.finish_abandoned (holds h n hh)
    · rw [hact, hlate h f hl, State.finishBoundary_groups]
      exact hcut h f
    · rw [hact, hapart ha, State.finishBoundary_groups, hgapped]
    · rw [hact, hapart ha]
      exact hreported _ (State.tells_of_evb rfl)

end Sys2Proof.Machine

/-! SUPPORT. A master's boundary, field by field, and MasterBoundaryDecides. -/

namespace Sys2Proof.Machine

section
variable {s : State} {g : GroupId} {line : Bool}

/-! ### The word (R92, R93) -/

theorem State.masterWord_kind_nominated {since : Frame} (h : s.csu.nomination = some (g, since)) : (s.masterWord line).kind
    = if line = true then .cut g
      else if (s.groups.get g).commitTimeout ≤ (s.csu.frame + 1 - since).toNat then .abandon g
      else if s.phase ≠ .running then .abandon g
      else .plain := by
  have htimed : s.timedOut (s.csu.frame + 1) = decide ((s.groups.get g).commitTimeout ≤ (s.csu.frame + 1 - since).toNat) := by
    unfold State.timedOut
    rw [h]
    rfl
  rw [State.masterWord_kind]
  unfold State.decision
  rw [htimed, h, ite_not]
  simp only [decide_eq_true_eq]

theorem State.masterWord_kind_head {rest : List GroupId} (h : s.csu.nomination = none) (hphase : s.phase = .running) (hdue : s.due = g :: rest) :
    (s.masterWord line).kind = .nominate g := by
  rw [State.masterWord_kind]
  simp only [State.decision, h, hphase, hdue, if_true]

theorem State.masterWord_kind_idle (h : s.csu.nomination = none) (hnone : s.phase ≠ .running ∨ s.due = []) :
    (s.masterWord line).kind = .plain := by
  rw [State.masterWord_kind]
  rcases hnone with hphase | hdue
  · simp only [State.decision, h, hphase, if_false]
  · simp only [State.decision, h, hdue, ite_self]

theorem State.masterWord_cut (h : (s.masterWord line).kind = .cut g) : (s.masterWord line).cutSequence = s.csu.cutSequence + 1
    ∧ (s.masterWord line).lastCut = some (g, s.csu.frame + 1) := by
  rw [State.masterWord_kind] at h
  unfold State.masterWord State.formWord
  rw [h]
  exact ⟨rfl, rfl⟩

theorem State.masterWord_other (h : ∀ g, (s.masterWord line).kind ≠ .cut g) : (s.masterWord line).cutSequence = s.csu.cutSequence
    ∧ (s.masterWord line).lastCut = s.csu.lastCut := by
  rw [State.masterWord_kind] at h
  unfold State.masterWord State.formWord
  cases hd : s.decision (s.csu.frame + 1) line with
  | cut g => exact absurd hd (h g)
  | plain => exact ⟨rfl, rfl⟩
  | nominate g => exact ⟨rfl, rfl⟩
  | abandon g => exact ⟨rfl, rfl⟩

/-! ### The part once the word is acted on -/

theorem State.masterActed_plain (h : (s.masterWord line).kind = .plain) : s.masterActed line = s.masterSent line := by
  unfold State.masterActed
  rw [← State.masterWord_kind, h]

theorem State.masterActed_nominate (h : (s.masterWord line).kind = .nominate g) :
    s.masterActed line = (s.masterSent line).nominate g (s.csu.frame + 1) := by
  unfold State.masterActed
  rw [← State.masterWord_kind, h]

theorem State.masterActed_cut (h : (s.masterWord line).kind = .cut g) :
    s.masterActed line = (s.masterSent line).executeCut g (s.csu.frame + 1) := by
  unfold State.masterActed
  rw [← State.masterWord_kind, h]

theorem State.masterActed_abandon (h : (s.masterWord line).kind = .abandon g) :
    s.masterActed line = (s.masterSent line).executeAbandon g := by
  unfold State.masterActed
  rw [← State.masterWord_kind, h]

theorem State.nominate_within (s : State) (g : GroupId) (f : Frame) : s.ActsWithin (s.nominate g f) := ⟨rfl, rfl⟩

theorem State.masterActed_within : (s.masterSent line).ActsWithin (s.masterActed line) := by
  cases hk : (s.masterWord line).kind with
  | plain => rw [State.masterActed_plain hk]; exact .refl _
  | nominate g => rw [State.masterActed_nominate hk]; exact State.nominate_within _ g _
  | cut g => rw [State.masterActed_cut hk]; exact State.executeCut_within g _ _
  | abandon g => rw [State.masterActed_abandon hk]; exact State.executeAbandon_within g _

theorem State.masterActed_sequence : (s.masterActed line).csu.cutSequence = (s.masterWord line).cutSequence
    ∧ (s.masterActed line).csu.lastCut = (s.masterWord line).lastCut := by
  have hkept : (∀ g, (s.masterWord line).kind ≠ .cut g) → ∀ {t : State}, t.csu.cutSequence = s.csu.cutSequence → t.csu.lastCut = s.csu.lastCut →
      t.csu.cutSequence = (s.masterWord line).cutSequence ∧ t.csu.lastCut = (s.masterWord line).lastCut := fun hn _ hseq hlast => by
    obtain ⟨hseq', hlast'⟩ := State.masterWord_other hn
    exact ⟨hseq.trans hseq'.symm, hlast.trans hlast'.symm⟩
  cases hk : (s.masterWord line).kind with
  | plain => rw [State.masterActed_plain hk]; exact hkept (by rw [hk]; nofun) rfl rfl
  | nominate g => rw [State.masterActed_nominate hk]; exact hkept (by rw [hk]; nofun) rfl rfl
  | cut g =>
    obtain ⟨hseq, hlast⟩ := State.masterWord_cut hk
    rw [State.masterActed_cut hk, hseq, hlast]
    exact ⟨State.executeCut_sequence _ g _, State.executeCut_lastCut _ g _⟩
  | abandon g =>
    rw [State.masterActed_abandon hk]
    obtain ⟨hseq, hlast⟩ := State.executeAbandon_kept (s := s.masterSent line) (g := g)
    exact hkept (by rw [hk]; nofun) hseq hlast

/-- A word that is not a CUT leaves the records (R79). -/
theorem State.masterActed_uncut (h : ∀ g, (s.masterWord line).kind ≠ .cut g) :
    (s.masterActed line).ptab = s.ptab ∧ (s.masterActed line).sdir = s.sdir := by
  cases hk : (s.masterWord line).kind with
  | plain => rw [State.masterActed_plain hk]; exact ⟨rfl, rfl⟩
  | nominate g => rw [State.masterActed_nominate hk, State.nominate_ptab, State.nominate_sdir]; exact ⟨rfl, rfl⟩
  | cut g => exact absurd hk (h g)
  | abandon g => rw [State.masterActed_abandon hk, State.executeAbandon_eq_whole]; exact ⟨rfl, rfl⟩

/-- The groups once the word is acted on (R74, R83, R85). -/
theorem State.masterActed_get (k : GroupId) : (s.masterActed line).groups.get k
    = if (s.masterWord line).kind = .cut k then { s.groups.get k with
        state := .idle, lastCutFrame := some (s.csu.frame + 1), cuts := (s.groups.get k).cuts + 1 }
      else if (s.masterWord line).kind = .abandon k then { s.groups.get k with state := .idle, abandons := (s.groups.get k).abandons + 1 }
      else if (s.masterWord line).kind = .nominate k then { s.groups.get k with state := .nominated (s.csu.frame + 1) }
      else s.groups.get k := by
  have hsent : (s.masterSent line).groups = s.groups := rfl
  cases hk : (s.masterWord line).kind with
  | plain => rw [State.masterActed_plain hk]; simp [hsent]
  | nominate g =>
    rw [State.masterActed_nominate hk, State.nominate_groups, Table.get_modify, hsent]
    by_cases he : g = k <;> simp [he]
  | cut g =>
    rw [State.masterActed_cut hk, State.executeCut_groups_eq, Table.get_set, hsent]
    by_cases he : g = k <;> simp [he]
  | abandon g =>
    rw [State.masterActed_abandon hk, State.executeAbandon_eq_whole, hsent]
    dsimp only
    rw [Table.get_set]
    by_cases he : g = k <;> simp [he]

/-- The groups that the word moves are neither ARMED before nor after it (R73, R90). -/
theorem State.MasterGroups.masterActed_triggered (h : s.MasterGroups) (k : GroupId) :
    (((s.masterActed line).groups.get k).state = .armed ∧ ((s.masterActed line).groups.get k).trigger = .frame (s.csu.frame + 1))
      ↔ (s.groups.get k).state = .armed ∧ (s.groups.get k).trigger = .frame (s.csu.frame + 1) := by
  obtain ⟨_, _, _, hmem, hnom⟩ := h
  have hnominated : ∀ since, s.csu.nomination = some (k, since) → ¬ (s.groups.get k).state = .armed := fun since hn ha => by
    have hg := (hnom k since).2 hn
    rw [State.groupState, ha] at hg
    cases hg
  rw [State.masterActed_get]
  rcases s.decision_cases line with hd | ⟨g, rest, _, hdue, hd⟩ | ⟨g, since, hn, hd⟩ | ⟨g, since, hn, hd⟩ <;>
    rw [State.masterWord_kind, hd]
  · simp
  · by_cases he : g = k
    · have hg := (hmem k).1 (by rw [hdue, he]; exact List.mem_cons_self)
      simp [he, show (s.groups.get k).state = .due from hg]
    · simp [he]
  · by_cases he : g = k
    · subst he
      simp [hnominated since hn]
    · simp [he]
  · by_cases he : g = k
    · subst he
      simp [hnominated since hn]
    · simp [he]

theorem State.MasterGroups.masterActed_fires (h : s.MasterGroups) : (s.masterActed line).frameTriggered (s.csu.frame + 1)
    = (List.finRange 8).filter fun g => decide ((s.groups.get g).state = .armed ∧ (s.groups.get g).trigger = .frame (s.csu.frame + 1)) := by
  unfold State.frameTriggered
  refine List.filter_congr fun k _ => ?_
  rw [Bool.eq_iff_iff, Bool.and_eq_true, decide_eq_true_eq, decide_eq_true_eq, decide_eq_true_eq]
  exact h.masterActed_triggered k

/-- The groups of a master after its boundary. -/
theorem State.MasterGroups.masterFired_get (h : s.MasterGroups) (k : GroupId) :
    ((s.masterActed line).fireFrameTriggers (s.csu.frame + 1)).groups.get k
      = if (s.masterWord line).kind = .cut k then { s.groups.get k with
          state := .idle, lastCutFrame := some (s.csu.frame + 1), cuts := (s.groups.get k).cuts + 1 }
        else if (s.masterWord line).kind = .abandon k then { s.groups.get k with state := .idle, abandons := (s.groups.get k).abandons + 1 }
        else if (s.masterWord line).kind = .nominate k then { s.groups.get k with state := .nominated (s.csu.frame + 1) }
        else if (s.groups.get k).state = .armed ∧ (s.groups.get k).trigger = .frame (s.csu.frame + 1) then { s.groups.get k with state := .due }
        else s.groups.get k := by
  have htriggered := h.masterActed_triggered (line := line) k
  unfold State.fireFrameTriggers
  rw [State.makeAllDue_get]
  by_cases ht : (s.groups.get k).state = .armed ∧ (s.groups.get k).trigger = .frame (s.csu.frame + 1)
  · obtain ⟨harmed, _⟩ := htriggered.2 ht
    rw [if_pos (State.mem_frameTriggered.2 (htriggered.2 ht)), if_pos ht]
    rw [State.masterActed_get] at harmed ⊢
    split_ifs at harmed ⊢
    rfl
  · rw [if_neg fun hm => ht (htriggered.1 (State.mem_frameTriggered.1 hm)), if_neg ht]
    exact State.masterActed_get k

theorem State.masterActed_due : (s.masterActed line).due = match (s.masterWord line).kind with | .nominate _ => s.due.tail | _ => s.due := by
  obtain ⟨hacted, _⟩ := State.masterActed_within (s := s) (line := line)
  rw [hacted]
  rfl

/-- The chain state before the end of the boundary. -/
theorem State.masterActed_csu : (s.masterActed line).csu = { s.csu with
    frame := s.csu.frame + 1, boundaryAt := max s.now s.nextBoundary, fsync := some (s.masterWord line)
    nomination := match (s.masterWord line).kind with
      | .plain => s.csu.nomination
      | .nominate g => some (g, s.csu.frame + 1)
      | _ => none
    cutSequence := (s.masterWord line).cutSequence, lastCut := (s.masterWord line).lastCut
    readinessGiven := (s.masterActed line).csu.readinessGiven, desyncHold := (s.masterActed line).csu.desyncHold } := by
  obtain ⟨_, hcsu⟩ := State.masterActed_within (s := s) (line := line)
  obtain ⟨hseq, hlast⟩ := State.masterActed_sequence (s := s) (line := line)
  rw [hcsu, hseq, hlast]
  have hnomination : (s.masterSent line).csu.nomination = match (s.masterWord line).kind with
      | .plain => s.csu.nomination
      | .nominate g => some (g, s.csu.frame + 1)
      | _ => none := by
    rw [State.masterWord_kind]
    show (match s.decision (s.csu.frame + 1) line with | .plain => _ | .nominate g => _ | .cut _ => _ | .abandon _ => _) = _
    cases s.decision (s.csu.frame + 1) line <;> rfl
  rw [← hnomination]
  rfl

/-- The records, the surfaces, the lists and the reports once the word is acted on. -/
theorem State.masterActed_eq : s.masterActed line = { s with
    now := max s.now s.nextBoundary, bgNow := s.bg, rateNow := s.rate
    groups := (s.masterActed line).groups, due := (s.masterActed line).due, csu := (s.masterActed line).csu
    ptab := (s.masterActed line).ptab, sdir := (s.masterActed line).sdir, cvb := (s.masterActed line).cvb
    evb := (s.masterActed line).evb } := by
  obtain ⟨hacted, _⟩ := State.masterActed_within (s := s) (line := line)
  rw [hacted]
  rfl

end

/-- The boundary of a master, whatever the groups say of one another: its end follows the word (R95). -/
theorem State.masterBoundary_acts (s : State) (line : Bool) : s.masterBoundary line
    = ((((s.masterSent line).actOn (s.masterWord line) s.csu.frame).fireFrameTriggers (s.csu.frame + 1))).finishBoundary s.cbi.state
        (s.csu.frame + 1) := rfl

theorem State.masterBoundary_sends (s : State) (line : Bool) : (s.masterBoundary line).csu.fsync = some (s.masterWord line)
    ∧ (s.masterBoundary line).csu.nomination = (s.masterSent line).csu.nomination := by
  obtain ⟨_, hcsu⟩ := (s.masterSent line).actOn_within (s.masterWord line) s.csu.frame
  have hfired : ∀ u : State, (u.fireFrameTriggers (s.csu.frame + 1)).csu = u.csu := fun u => by
    rw [State.fireFrameTriggers, State.makeAllDue_eq]
  rw [State.masterBoundary_acts, State.finishBoundary_csu, hfired, hcsu]
  exact ⟨rfl, rfl⟩

/-- Settles O34: the decision of R93, the word acted on, the triggers of the boundary, and its end. -/
theorem masterBoundaryDecides : Obligations.MasterBoundaryDecides := by
  unfold Obligations.MasterBoundaryDecides
  refine ⟨fun s others hrole htiming hgroups => ?boundary, fun s g since hrole htiming hn hle => ?timeout, fun s h => ?early⟩
  case timeout =>
    have hmakes : s.makesBoundaries = true := s.makesBoundaries_iff.2 ⟨hrole, htiming⟩
    have htimed : s.timedOut (s.csu.frame + 1) = true := by
      unfold State.timedOut
      rw [hn]
      exact decide_eq_true hle
    have hrow : exec .commitTimeout s = .next (s.masterBoundary false) := if_pos (by rw [hmakes, htimed]; rfl)
    have hrow' : exec (.masterFrameBoundary false) s = .next (s.masterBoundary false) := by
      refine (if_pos hmakes).trans ?_
      rw [Bool.and_false]
    have hkind : (s.masterWord false).kind = .abandon g := by
      rw [State.masterWord_kind_nominated hn, if_neg Bool.false_ne_true, if_pos hle]
    obtain ⟨hfsync, hnomination⟩ := s.masterBoundary_sends false
    refine ⟨hrow.trans hrow'.symm, _, _, hrow, hfsync, hkind, rfl, hnomination.trans ?_⟩
    show (match (s.masterWord false).kind with | .plain => _ | .nominate g => _ | .cut _ => _ | .abandon _ => _) = _
    rw [hkind]
  case early =>
    refine if_neg fun hb => ?_
    obtain ⟨_, htimed⟩ := Bool.and_eq_true_iff.1 hb
    unfold State.timedOut at htimed
    split at htimed
    · cases htimed
    · next g since hn => exact absurd (h g since hn) (Nat.not_lt.2 (of_decide_eq_true htimed))
  case boundary =>
    intro f released overdue triggered
    have hmakes : s.makesBoundaries = true := s.makesBoundaries_iff.2 ⟨hrole, htiming⟩
    obtain ⟨line, hline⟩ : ∃ line, line = (s.csu.rdyReleased && others) := ⟨_, rfl⟩
    have hreleased : line = true ↔ released := by rw [hline, Bool.and_eq_true]
    have hrow : exec (.masterFrameBoundary others) s = .next (s.masterBoundary line) := by rw [hline]; exact if_pos hmakes
    obtain ⟨m, hm⟩ : ∃ m, m = (s.masterActed line).fireFrameTriggers (s.csu.frame + 1) := ⟨_, rfl⟩
    rw [hgroups.masterBoundary_eq, ← hm] at hrow
    have hmget := fun k => hgroups.masterFired_get (line := line) k
    rw [← hm] at hmget
    have hmwhole : m = { s.masterActed line with groups := m.groups, due := (s.masterActed line).due ++ (s.masterActed line).frameTriggered f } := by
      rw [hm]
      exact State.makeAllDue_eq _ _
    have hmdue : m.due = (s.masterActed line).due ++ (s.masterActed line).frameTriggered f := by rw [hmwhole]
    have hmcsu : m.csu = (s.masterActed line).csu := by rw [hmwhole]
    have hended := State.endsBoundary_eq (s := m.evaluate) (flag := s.cbi.state) (f := s.csu.frame + 1)
    have hmeq : m = { s with
        now := max s.now s.nextBoundary, bgNow := s.bg, rateNow := s.rate, groups := m.groups, due := m.due, csu := m.csu
        ptab := m.ptab, sdir := m.sdir, cvb := m.cvb, evb := m.evb } := by
      rw [hmwhole, State.masterActed_eq]
    have hmptab : m.ptab = (s.masterActed line).ptab := by rw [hmwhole]
    have hmsdir : m.sdir = (s.masterActed line).sdir := by rw [hmwhole]
    have hmcvb : m.cvb = (s.masterActed line).cvb := by rw [hmwhole]
    have hmevb : m.evb = (s.masterActed line).evb := by rw [hmwhole]
    have htnow : (m.finishBoundary s.cbi.state (s.csu.frame + 1)).now = max s.now s.nextBoundary := by
      rw [State.finishBoundary_eq, hended, m.evaluate_eq, hmeq]
    have htdue : (m.finishBoundary s.cbi.state (s.csu.frame + 1)).due = m.due := by
      rw [State.finishBoundary_eq, hended, m.evaluate_eq]
    have htick := State.endsBoundary_tick (s := m.evaluate) (flag := s.cbi.state) (f := s.csu.frame + 1)
    refine ⟨_, s.masterWord line, hrow, rfl, rfl, fun g since hn => ?_, fun hn hp h rest hq => State.masterWord_kind_head hn hp hq,
      fun hn hnone => State.masterWord_kind_idle hn hnone, fun g hk => State.masterWord_cut hk, fun hk => State.masterWord_other hk,
      fun g => ?_, ?_, ?_, ?_, fun hp => ?_, ?_, m, rfl, ?_, fun g hk => ?_, fun hk => ?_, fun g hk => ?_, fun g hk => ?_, fun hk => ?_⟩
    · rw [State.masterWord_kind_nominated hn]
      exact if_congr hreleased rfl rfl
    · rw [State.finishBoundary_groups]
      exact hmget g
    · exact htdue.trans (hmdue.trans (congrArg₂ (· ++ ·) State.masterActed_due hgroups.masterActed_fires))
    · exact htnow
    · rw [htnow, State.finishBoundary_csu, hmcsu, State.masterActed_csu]
      rfl
    · obtain ⟨r, hr, hdetail⟩ := htick (by rw [m.evaluate_eq, hmeq]; exact hp)
      refine ⟨r, hr, hdetail.trans ?_⟩
      rw [m.evaluate_eq, hmcsu, State.masterActed_csu]
    · rw [State.finishBoundary_eq, hended, m.evaluate_eq, hmeq]
    · rw [htnow, State.finishBoundary_groups, htdue, State.finishBoundary_csu]
      refine hmeq.trans ?_
      rw [hmcsu, State.masterActed_csu]
    · obtain ⟨hptab, hsdir, hcvb⟩ := State.executeCut_congr (s := s) (o := s.masterSent line) (g := g) (f := f) rfl rfl rfl rfl
      have hevb := State.executeCut_evb_congr (s := s) (o := s.masterSent line) hcvb rfl rfl rfl
      rw [hmptab, hmsdir, hmcvb, hmevb, State.masterActed_cut hk]
      exact ⟨hptab, hsdir, hcvb, hevb⟩
    · rw [hmptab, hmsdir]
      exact State.masterActed_uncut hk
    · rw [hmcvb, hmevb, State.masterActed_abandon hk, State.executeAbandon_eq_whole, State.executeAbandon_eq_whole]
      exact ⟨rfl, rfl⟩
    · rw [hmcvb, hmevb, State.masterActed_nominate hk, State.nominate_cvb, State.nominate_evb]
      exact ⟨rfl, rfl⟩
    · rw [hmcvb, hmevb, State.masterActed_plain hk]
      exact ⟨rfl, rfl⟩

end Sys2Proof.Machine

/-! SUPPORT. One port's step and its reports; StatusesTaken and PortsStep. -/

namespace Sys2Proof.Machine

/-! ### Reports of one port (R151, R158) -/

section
variable {s : State} {t : TileId} {f : Frame}

theorem State.reportAll_single (d : Detail) : (s.reportAll [d]).evb = s.told d := rfl

theorem State.reportAll_nil : (s.reportAll []).evb = s.evb := ite_self _

/-- A change of one port, whole. -/
theorem State.changePort_eq (r : Port × List PortState) : s.changePort t r = { s with
    ports := s.ports.set t r.1
    evb := (s.reportAll (changesThrough t s.csu.frame (s.ports.get t).state r.2)).evb } := rfl

theorem State.changePort_told (r : Port × List PortState) :
    (s.changePort t r).evb = (s.reportAll (changesThrough t s.csu.frame (s.ports.get t).state r.2)).evb := rfl

theorem changesThrough_one {old new : PortState} (h : old.name ≠ new.name) :
    changesThrough t f old [new] = [.tileChange t old.name new.name new.attempt f] := by
  unfold changesThrough changeOf
  rw [if_neg h]
  rfl

end

/-! ### Statuses (R154, R155, R158) -/

section
variable {s : State} {t : TileId} {locked : Bool} {c : Temperature} {p : Port}

theorem Port.afterStatus_locks {a n : Nat} (h : p.state = .training a n) :
    p.afterStatus true c = ({ p with temperature := c, state := .up, missed := 0, lockSeen := true }, [.up]) := by
  unfold Port.afterStatus
  rw [h]
  rfl

/-- Any other status taken leaves the state, and reports no change of it. -/
theorem Port.afterStatus_other (h : (∀ a n, p.state ≠ .training a n) ∨ locked = false) :
    p.afterStatus locked c = ({ p with
      temperature := c, lockSeen := match p.state with | .up => p.lockSeen || locked | _ => p.lockSeen }, []) := by
  unfold Port.afterStatus
  cases hs : p.state with
  | training a n =>
    have hl : locked = false := h.resolve_left fun hn => hn a n hs
    rw [hl]
    rfl
  | up => rfl
  | off => rfl
  | powering e => rfl
  | lost => rfl
  | draining st r => rfl
  | fault => rfl

theorem hotReport_eq (old : Temperature) (f : Frame) :
    hotReport t f old c = if c = .hot ∧ old ≠ .hot then [.tileHot t f] else [] := if_congr and_comm rfl rfl

/-- A status taken, whole (R158). -/
theorem State.exec_status_taken (h : (s.ports.get t).state.takesStatus = true) : exec (.backChannelStatus t locked c) s
    = .next ((s.changePort t ((s.ports.get t).afterStatus locked c)).reportAll (hotReport t s.csu.frame (s.ports.get t).temperature c)) :=
  if_pos h

/-- The class passes to HOT: reported after what is reported of the state (R158). -/
theorem State.reportAll_hot (u : State) (hphase : u.phase = s.phase) (old : Temperature) (f : Frame) :
    (u.reportAll (hotReport t f old c)).evb
      = if c = .hot ∧ old ≠ .hot then State.told { s with evb := u.evb } (.tileHot t f) else u.evb := by
  rw [hotReport_eq]
  split
  · rw [State.reportAll_single]
    unfold State.told
    rw [hphase]
  · exact State.reportAll_nil

end

/-- Settles O46: a status is taken by the state of its port, its class reported where it passes to HOT. -/
theorem statusesTaken : Obligations.StatusesTaken := by
  unfold Obligations.StatusesTaken
  refine ⟨fun s t locked c h => ?_, fun s t locked c h => ?_⟩
  · refine if_neg ?_
    rcases h with h | ⟨e, h⟩ | h <;> rw [h] <;> exact Bool.false_ne_true
  have htakes : (s.ports.get t).state.takesStatus = true := by
    rcases h with ⟨a, n, h⟩ | h | h | ⟨st, r, h⟩ <;> rw [h] <;> rfl
  have hother := Port.afterStatus_other (p := s.ports.get t) (locked := locked) (c := c)
  have hlocks := fun a n => Port.afterStatus_locks (p := s.ports.get t) (c := c) (a := a) (n := n)
  have hrow := State.exec_status_taken (locked := locked) (c := c) htakes
  obtain ⟨r, hr⟩ : ∃ r, r = (s.ports.get t).afterStatus locked c := ⟨_, rfl⟩
  rw [← hr] at hother hrow
  have hget : ((s.changePort t r).reportAll (hotReport t s.csu.frame (s.ports.get t).temperature c)).ports.get t = r.1 := by
    rw [State.reportAll_ports, State.changePort_ports, Table.get_set_self]
  have hevb := State.reportAll_hot (s := s) (t := t) (c := c) (s.changePort t r) (State.changePort_phase s t r) (s.ports.get t).temperature s.csu.frame
  refine ⟨_, hrow, ?_, ?_, fun hn => ?_, fun a n ha hl => ?_, fun hup => ?_, fun hc ho hphase => ?_, fun a n ha hl => ?_, fun hn => ?_⟩
  · rw [hget]
    rfl
  · rw [hget, hr]
    by_cases hn : (∀ a n, (s.ports.get t).state ≠ .training a n) ∨ locked = false
    · rw [Port.afterStatus_other hn]
    · obtain ⟨hn, hl⟩ := not_or.1 hn
      simp only [not_forall, not_not] at hn
      obtain ⟨a, n, ha⟩ := hn
      rw [(Bool.not_eq_false locked).mp hl, hlocks a n ha]
  · rw [hget, hother hn]
    exact ⟨rfl, rfl⟩
  · subst hl
    rw [hlocks a n ha] at hr
    have hstate : (((s.changePort t r).reportAll (hotReport t s.csu.frame (s.ports.get t).temperature c)).ports.get t).state = .up := by
      rw [hget, hr]
    refine ⟨hstate, by rw [hget, hr], ?_, fun hk => ?_⟩
    · unfold State.linkDrive
      rw [ha]
    · unfold State.linkDrive
      rw [hstate]
      exact if_pos hk
  · rw [hget, hother (.inl (by rw [hup]; nofun)), hup]
  · rw [hevb, if_pos ⟨hc, ho⟩]
    exact State.told_get (s := { s with evb := (s.changePort t r).evb }) (d := .tileHot t s.csu.frame) hphase
  · subst hl
    rw [hlocks a n ha] at hr
    have hchanged : (s.changePort t r).evb = s.told (.tileChange t .training .up none s.csu.frame) := by
      have hone : changesThrough t s.csu.frame (.training a n) [.up] = [.tileChange t .training .up none s.csu.frame] :=
        changesThrough_one (show PortName.training ≠ PortName.up by decide)
      rw [State.changePort_told, hr, ha, hone, State.reportAll_single]
    rw [hevb, hchanged]
  · have hchanged : (s.changePort t r).evb = s.evb := by
      rw [State.changePort_told, hother hn]
      exact State.reportAll_nil
    rw [hevb, hchanged]

/-! ### One port's boundary alone (R154 to R157) -/

section
variable {s : State} {t : TileId} {p : Port} {news : List PortState}

/-- A fetch cancelled with the tile's frame (R147). -/
theorem Fsc.cancelFetch_eq (f : Fsc) : f.cancelFetch t = { f with
    fetches := f.fetches.set t none, burst := f.burst.map (Burst.cancelledFor t)
    serving := if f.serving = some t then none else f.serving } := rfl

/-- The level of a frame, by the temperature in force (R134, R159). -/
theorem effectiveLevel_eq (level : Nat) (c : Temperature) : effectiveLevel level c = if c = .hot then min level 128 else level := by
  cases c <;> rfl

/-- A port that takes a boundary alone, and has no frame to send afterwards (R147, R155 to R160). -/
theorem State.portBoundary_closed (hstep : s.portStep t = (p, news)) (hblack : ∀ r, (s.ports.get t).state ≠ .draining .beforeBlack r)
    (hup : p.state ≠ .up) : s.PortClosed t p (s.portBoundary t)
      ∧ (s.portBoundary t).evb = (s.reportAll (changesThrough t s.csu.frame (s.ports.get t).state news)).evb := by
  obtain ⟨v, hv⟩ : ∃ v, v = s.changePort t (p, news) := ⟨_, rfl⟩
  have hport : v.ports.get t = p := by rw [hv, State.changePort_ports, Table.get_set_self]
  have htiles : v.tiles = s.tiles := by rw [hv, State.changePort_tiles]
  have hkind : v.decideKind s.ports t = .none := by
    unfold State.decideKind
    split
    · next r hr => exact absurd hr (hblack r)
    · rw [hport]
      exact if_neg hup
  have hframe : (s.portBoundary t).frames.get t = v.openFrameOf s.ports t := by
    unfold State.portBoundary
    rw [hstep, ← hv]
    exact Table.get_set_self _ _ _
  refine ⟨⟨?_, ?_, ?_, ?_, ?_⟩, ?_⟩
  · have hset : (s.portBoundary t).frames = s.frames.set t ((s.portBoundary t).frames.get t) := by
      rw [hframe]
      unfold State.portBoundary
      rw [hstep, ← hv, hv]
      rfl
    have hevb : (s.portBoundary t).evb = v.evb := by
      unfold State.portBoundary
      rw [hstep, ← hv]
    rw [← hset, hevb]
    unfold State.portBoundary
    rw [hstep, ← hv, hv]
    rfl
  · rw [hframe]
    exact hkind
  · rw [hframe]
    exact if_neg (by rw [hkind]; nofun)
  · rw [hframe]
    exact congrArg Port.temperature hport
  · rw [hframe]
    show effectiveLevel (v.tiles.get t).level (v.ports.get t).temperature = _
    rw [effectiveLevel_eq, hport, htiles]
  · unfold State.portBoundary
    rw [hstep]
    rfl

/-- What a port without a frame puts on its link (R151, R154). -/
theorem State.linkDrive_unframed {u : State} (hkind : (u.frames.get t).kind = .none) :
    u.linkDrive t = match (u.ports.get t).state with | .training _ _ => .pattern | _ => .nothing := by
  unfold State.linkDrive
  cases (u.ports.get t).state with
  | training a n => rfl
  | up => exact if_pos hkind
  | draining st r => exact if_pos hkind
  | off => rfl
  | powering e => rfl
  | lost => rfl
  | fault => rfl

/-- The link of a port that has taken its boundary alone. -/
theorem State.PortClosed.linkDrive {u : State} (h : s.PortClosed t p u) :
    u.linkDrive t = match p.state with | .training _ _ => .pattern | _ => .nothing := by
  obtain ⟨hu, hkind, _⟩ := h
  have hport : u.ports.get t = p := by
    rw [hu]
    exact Table.get_set_self _ _ _
  rw [State.linkDrive_unframed hkind, hport]

end

/-! ### The rows -/

section
variable {s : State} {t : TileId}

theorem State.exec_warmUpExpiry {e : Nat} (h : (s.ports.get t).state = .powering e) : exec (.warmUpExpiry t) s
    = .next { s with
        now := max s.now e
        ports := s.ports.set t { s.ports.get t with state := .training 1 0 }
        evb := s.told (.tileChange t .powering .training (some 1) s.csu.frame) } := by
  have hone : changesThrough t s.csu.frame (.powering e) [.training 1 0] = [.tileChange t .powering .training (some 1) s.csu.frame] :=
    changesThrough_one (show PortName.powering ≠ PortName.training by decide)
  have hrow : exec (.warmUpExpiry t) s
      = .next ((s.atLeast e).changePort t ((s.ports.get t).enter (.training 1 0), [.training 1 0])) := by
    show execWarmUpExpiry t s = _
    unfold execWarmUpExpiry
    rw [h]
  have hreport : ((s.atLeast e).reportAll (changesThrough t s.csu.frame (s.ports.get t).state [.training 1 0])).evb
      = s.told (.tileChange t .powering .training (some 1) s.csu.frame) := by
    rw [h, hone, State.reportAll_single]
    rfl
  rw [hrow, State.changePort_eq, ← hreport]
  rfl

theorem State.exec_trainingAttemptFail {a n : Nat} (h : (s.ports.get t).state = .training a n) (hn : 5 ≤ n) :
    exec (.trainingAttemptFail t) s = .next (s.portBoundary t) := by
  show execTrainingAttemptFail t s = _
  unfold execTrainingAttemptFail
  rw [h]
  exact if_neg (by omega)

theorem State.exec_tileLost (h : (s.ports.get t).state = .up) (hlock : (s.ports.get t).lockSeen = false) (hmissed : 2 ≤ (s.ports.get t).missed) :
    exec (.tileLost t) s = .next (s.portBoundary t) := by
  show execTileLost t s = _
  unfold execTileLost
  rw [h]
  exact if_pos ⟨hlock, by omega⟩

theorem State.exec_drainEnd {r : Bool} (h : (s.ports.get t).state = .draining .blackSent r) :
    exec (.drainEnd t) s = .next (s.portBoundary t) := by
  show execDrainEnd t s = _
  unfold execDrainEnd
  rw [h]

/-- The step of an attempt's sixth boundary (R154, R157). -/
theorem State.portStep_attempt {a n : Nat} (h : (s.ports.get t).state = .training a n) (hn : 5 ≤ n) : s.portStep t
    = if a < 3 then ({ s.ports.get t with state := .training (a + 1) 0, lockSeen := false }, [])
      else ({ s.ports.get t with state := .fault, temperature := .ok, lockSeen := false }, [.fault]) := by
  unfold State.portStep Port.atBoundary
  rw [h]
  exact if_neg (by omega)

theorem State.portStep_lost (h : (s.ports.get t).state = .up) (hlock : (s.ports.get t).lockSeen = false) (hmissed : 2 ≤ (s.ports.get t).missed) :
    s.portStep t = ({ s.ports.get t with state := .lost, missed := 3 }, [.lost]) := by
  have hover : ¬ (s.ports.get t).missed + 1 < 3 := by omega
  unfold State.portStep
  generalize s.ports.get t = p at h hlock hover
  obtain ⟨state, missed, temperature, lockSeen⟩ := p
  cases h
  cases hlock
  exact if_neg hover

theorem State.portStep_drained (r : Bool) (h : (s.ports.get t).state = .draining .blackSent r) : s.portStep t
    = if r = true then
        ({ s.ports.get t with
            state := .powering (s.now + (s.tiles.get t).warmUp * Config.ticksPerMilli), temperature := .ok, lockSeen := false },
          [.off, .powering (s.now + (s.tiles.get t).warmUp * Config.ticksPerMilli)])
      else ({ s.ports.get t with state := .off, temperature := .ok, lockSeen := false }, [.off]) := by
  unfold State.portStep Port.atBoundary
  rw [h]
  rfl

end

/-- Settles O45: each row by the step of R153 to R157 that it takes, for its port alone. -/
theorem portsStep : Obligations.PortsStep := by
  unfold Obligations.PortsStep
  refine ⟨fun s t e h => ?_, fun s t a n h hn ha => ?_, fun s t a n h hn ha => ?_, fun s t h hl hm => ?_, fun s t h => ?_, fun s t h => ?_,
    fun s t => ⟨fun h => ?_, fun h => ?_, fun h => ?_, fun h => ?_⟩⟩
  · refine ⟨_, State.exec_warmUpExpiry h, rfl, ?_, ?_⟩
    · unfold State.linkDrive
      rw [h]
    · unfold State.linkDrive
      rw [Table.get_set_self]
  · obtain ⟨hclosed, hevb⟩ := State.portBoundary_closed ((State.portStep_attempt h hn).trans (if_pos ha)) (by rw [h]; nofun) nofun
    exact ⟨_, State.exec_trainingAttemptFail h hn, hclosed, hevb.trans State.reportAll_nil, hclosed.linkDrive⟩
  · obtain ⟨hclosed, hevb⟩ := State.portBoundary_closed ((State.portStep_attempt h hn).trans (if_neg (Nat.not_lt.2 ha))) (by rw [h]; nofun) nofun
    refine ⟨_, State.exec_trainingAttemptFail h hn, hclosed, hevb.trans ?_, hclosed.linkDrive⟩
    rw [h, changesThrough_one (old := .training a n) (new := .fault) (show PortName.training ≠ PortName.fault by decide)]
    rfl
  · obtain ⟨hclosed, hevb⟩ := State.portBoundary_closed (State.portStep_lost h hl hm) (by rw [h]; nofun) nofun
    refine ⟨_, State.exec_tileLost h hl hm, hclosed, hevb.trans ?_, hclosed.linkDrive⟩
    rw [h, changesThrough_one (old := .up) (new := .lost) (show PortName.up ≠ PortName.lost by decide)]
    rfl
  · obtain ⟨hclosed, hevb⟩ := State.portBoundary_closed ((State.portStep_drained _ h).trans (if_neg Bool.false_ne_true)) (by rw [h]; nofun) nofun
    refine ⟨_, State.exec_drainEnd h, hclosed, hevb.trans ?_, hclosed.linkDrive⟩
    rw [h, changesThrough_one (old := .draining .blackSent false) (new := .off) (show PortName.draining ≠ PortName.off by decide)]
    rfl
  · obtain ⟨hclosed, hevb⟩ := State.portBoundary_closed ((State.portStep_drained _ h).trans (if_pos rfl)) (by rw [h]; nofun) nofun
    refine ⟨_, State.exec_drainEnd h, hclosed, hclosed.linkDrive, hevb.trans ?_⟩
    rw [h]
    rfl
  · show execWarmUpExpiry t s = _
    unfold execWarmUpExpiry
    split
    · next e he => exact absurd he (h e)
    · rfl
  · show execTrainingAttemptFail t s = _
    unfold execTrainingAttemptFail
    split
    · next a n he => exact if_pos (Nat.succ_lt_succ (h a n he))
    · rfl
  · show execTileLost t s = _
    unfold execTileLost
    split
    · next he =>
      refine if_neg fun ⟨hlock, hmissed⟩ => ?_
      rcases h with h | h | h
      · exact h he
      · rw [hlock] at h
        cases h
      · omega
    · rfl
  · show execDrainEnd t s = _
    unfold execDrainEnd
    split
    · next r he => exact absurd he (h r)
    · rfl

end Sys2Proof.Machine

/-! SUPPORT. Reports of many ports to one flag, the switch of TILE_POWER, and PortsSwitched. -/

namespace Sys2Proof.Machine

/-! ### Reports of many ports (R151, R188) -/

section
variable {s : State} {t : TileId} {f : Frame} {reports : TileId → List Detail}

/-- A change reported is TILE_CHANGE of its own tile. -/
theorem changesThrough_masks {news : List PortState} {d : Detail} : ∀ {old : PortState}, d ∈ changesThrough t f old news →
    d.flag = 6 ∧ d.maskBit = BitVec.ofNat 16 (2 ^ t.val) := by
  induction news with
  | nil => exact nofun
  | cons new rest ih =>
    intro old hd
    rcases List.mem_append.1 hd with hd | hd
    · unfold changeOf at hd
      split at hd
      · cases hd
      · rw [List.mem_singleton.1 hd]
        exact ⟨rfl, rfl⟩
    · exact ih hd

/-- Reports each of the flag TILE_CHANGE, with its own tile in the mask. -/
def ReportsTiles (reports : TileId → List Detail) : Prop :=
  ∀ t, ∀ d ∈ reports t, d.flag = 6 ∧ d.maskBit = BitVec.ofNat 16 (2 ^ t.val)

theorem State.tileReports_eq_nil (h : ∀ t, reports t = []) : s.tileReports reports = [] :=
  List.eq_nil_iff_forall_not_mem.2 fun d hd => by
    obtain ⟨t, ht⟩ := State.mem_tileReports.1 hd
    rw [h t] at ht
    cases ht

/-- The reports of the one tile that has any. -/
theorem State.tileReports_only (ht : reports t ≠ []) (honly : ∀ k, reports k ≠ [] → k = t) : s.tileReports reports = reports t := by
  have hfilter : ((List.finRange 16).filter fun k => !(reports k).isEmpty) = [t] := by
    have hmem : ∀ k, (!(reports k).isEmpty) = decide (k = t) := fun k => by
      rw [Bool.eq_iff_iff, Bool.not_eq_true', List.isEmpty_eq_false_iff, decide_eq_true_eq]
      exact ⟨honly k, fun he => he ▸ ht⟩
    simp only [hmem]
    rw [List.filter_eq, List.count_eq_one_of_mem (List.nodup_finRange 16) (List.mem_finRange t)]
    rfl
  unfold State.tileReports
  rw [hfilter]
  exact List.append_nil _

/-- What the reports of the ports leave of TILE_CHANGE. -/
theorem State.tileReports_masked (e : Evb) (hreports : ReportsTiles reports) (ht : reports t ≠ []) :
    ∃ r, ((s.tileReports reports).foldl (fun e d => e.record d) e).flags.get 6 = some r
      ∧ ∀ k : Fin 16, r.mask.getLsbD k.val = true ↔ reports k ≠ [] ∨ ∃ q, e.flags.get 6 = some q ∧ q.mask.getLsbD k.val = true := by
  have hflag : ∀ d ∈ s.tileReports reports, d.flag = 6 := fun d hd => by
    obtain ⟨k, hk⟩ := State.mem_tileReports.1 hd
    exact (hreports k d hk).1
  have hne : s.tileReports reports ≠ [] := by
    obtain ⟨d, hd⟩ := List.exists_mem_of_ne_nil _ ht
    exact List.ne_nil_of_mem (State.mem_tileReports.2 ⟨t, hd⟩)
  obtain ⟨r, hr, _, _, hmask⟩ := Evb.get_foldl_record e _ hflag hne
  refine ⟨r, hr, fun k => (hmask k).trans (or_congr ⟨fun ⟨d, hd, hbit⟩ => ?_, fun hk => ?_⟩ Iff.rfl)⟩
  · obtain ⟨j, hj⟩ := State.mem_tileReports.1 hd
    rw [(hreports j d hj).2, getLsbD_two_pow, decide_eq_true_eq] at hbit
    rw [hbit]
    exact List.ne_nil_of_mem hj
  · obtain ⟨d, hd⟩ := List.exists_mem_of_ne_nil _ hk
    refine ⟨d, State.mem_tileReports.2 ⟨k, hd⟩, ?_⟩
    rw [(hreports k d hd).2, getLsbD_two_pow, decide_eq_true_eq]

/-- What reports of every port that has changed, and of no other, say of the changes (R151, R188). -/
theorem State.changes_reported {v w : State} (hphase : s.phase ≠ .starting)
    (hevb : v.evb = (w.tileReports reports).foldl (fun e d => e.record d) s.evb) (hreports : ReportsTiles reports)
    (hchange : ∀ t, reports t ≠ [] ↔ s.PortChanges v t) :
    s.ChangesMasked v ∧ ((∀ t, ¬ s.PortChanges v t) → v.evb = s.evb)
      ∧ (∀ t, s.PortChanges v t → (∀ k, s.PortChanges v k → k = t) → v.evb = (s.reportAll (reports t)).evb)
      ∧ (∀ n, n ≠ 6 → v.evb.flags.get n = s.evb.flags.get n) ∧ v.evb.enables = s.evb.enables := by
  rw [State.ChangesMasked, hevb]
  refine ⟨fun t ht => ?_, fun hnone => ?_, fun t ht honly => ?_, fun n hn => ?_, Evb.enables_foldl_record _ _⟩
  · obtain ⟨r, hr, hmask⟩ := State.tileReports_masked (s := w) s.evb hreports ((hchange t).2 ht)
    exact ⟨r, hr, fun k => (hmask k).trans (or_congr (hchange k) Iff.rfl)⟩
  · rw [State.tileReports_eq_nil fun t => not_not.1 fun ht => hnone t ((hchange t).1 ht)]
    rfl
  · rw [State.tileReports_only ((hchange t).2 ht) fun k hk => honly k ((hchange k).1 hk)]
    exact (if_neg hphase).symm
  · refine Evb.get_foldl_record_ne _ _ fun d hd he => hn ?_
    obtain ⟨t, ht⟩ := State.mem_tileReports.1 hd
    rw [← he, (hreports t d ht).1]

end

/-! ### The switch of TILE_POWER (R150, R152) -/

/-- What TILE_POWER makes of a port's state. -/
def PortState.switched (st : PortState) (on : Bool) (begun : PortState) : PortState :=
  match st, on with
  | .off, true => begun
  | .off, false => .off
  | .powering left, true => .powering left
  | .powering _, false => .off
  | .training a n, true => .training a n
  | .training _ _, false => .draining .beforeBlack false
  | .up, true => .up
  | .up, false => .draining .beforeBlack false
  | .lost, true => .lost
  | .lost, false => .draining .beforeBlack false
  | .draining stage _, restart => .draining stage restart
  | .fault, true => begun
  | .fault, false => .off

section
variable {on : Bool} {now ms : Nat} {p : Port} {s : State} {t : TileId} {ts : List TileId} {warmUp : Option Nat}

/-- The port switched, and the state reported where it is another by name (R151, R152). -/
theorem Port.switch_eq : p.switch on now ms
    = ({ p with state := p.state.switched on (warmUpFrom now ms) },
        if p.state.name = (p.state.switched on (warmUpFrom now ms)).name then [] else [p.state.switched on (warmUpFrom now ms)]) := by
  obtain ⟨st, missed, temperature, lockSeen⟩ := p
  cases st <;> cases on <;> simp [Port.switch, Port.enter, PortState.switched, PortState.name, warmUpFrom]

theorem PortState.switched_attempt {st : PortState} (h : st.name ≠ (st.switched on (warmUpFrom now ms)).name) :
    (st.switched on (warmUpFrom now ms)).attempt = none := by
  cases st with
  | training a n => cases on with
    | true => exact absurd rfl h
    | false => rfl
  | _ => cases on <;> rfl

theorem State.storeWarmUp_get : (s.storeWarmUp ts warmUp).tiles.get t
    = if t ∈ ts then { s.tiles.get t with warmUp := match warmUp with
        | none => (s.tiles.get t).warmUp
        | some n => if n < 50 then 50 else if 1000 < n then 1000 else n - n % 10 }
      else s.tiles.get t := by
  cases warmUp with
  | none => exact (ite_self _).symm
  | some n =>
    have hrounded : n / 10 * 10 = n - n % 10 := by omega
    have hstored : warmUpStored n = if n < 50 then 50 else if 1000 < n then 1000 else n - n % 10 := by
      rw [← hrounded]
      rfl
    dsimp only
    rw [← hstored]
    exact Table.get_mapIdx _ _ _

/-- The ports after the switch (R152). -/
theorem State.switchPorts_get : (s.switchPorts ts on).ports.get t = if t ∈ ts then { s.ports.get t with
      state := (s.ports.get t).state.switched on (warmUpFrom s.now (s.tiles.get t).warmUp) } else s.ports.get t := by
  refine (Table.get_ofFn _ _).trans ?_
  unfold State.switchStep
  split
  · rw [Port.switch_eq]
  · rfl

/-- The reports of the switch: of a selected port that changes state, its change (R151). -/
def State.switchReports (ts : List TileId) (on : Bool) (s : State) (t : TileId) : List Detail :=
  changesThrough t s.csu.frame (s.ports.get t).state (s.switchStep ts on t).2

theorem State.switchPorts_eq : s.switchPorts ts on = { s with
    ports := (s.switchPorts ts on).ports
    evb := if s.phase = .starting then s.evb else (s.tileReports (s.switchReports ts on)).foldl (fun e d => e.record d) s.evb } := rfl

/-- A port reports where it changes state, and then that change alone. -/
theorem State.switchReports_eq : s.switchReports ts on t
    = if (s.ports.get t).state.name = ((s.switchPorts ts on).ports.get t).state.name then []
      else [.tileChange t (s.ports.get t).state.name ((s.switchPorts ts on).ports.get t).state.name none s.csu.frame] := by
  rw [State.switchPorts_get]
  unfold State.switchReports State.switchStep
  by_cases hts : t ∈ ts
  · rw [if_pos hts, if_pos hts, Port.switch_eq]
    dsimp only
    split
    · rfl
    · next hname => rw [changesThrough_one hname, PortState.switched_attempt hname]
  · rw [if_neg hts, if_neg hts, if_pos rfl]
    rfl

end

section
variable {s : State} {t : TileId} {ts : List TileId} {on : Bool} {warmUp : Option Nat}

/-- The switch of TILE_POWER says of every port what has changed of its state (R151, R188). -/
theorem State.switchPorts_reported (hphase : s.phase ≠ .starting) {v : State} (hv : v = (s.storeWarmUp ts warmUp).switchPorts ts on) :
    s.ChangesMasked v ∧ ((∀ t, ¬ s.PortChanges v t) → v.evb = s.evb)
      ∧ (∀ t, s.PortChanges v t → (∀ k, s.PortChanges v k → k = t) →
          v.evb = s.told (.tileChange t (s.ports.get t).state.name (v.ports.get t).state.name none s.csu.frame))
      ∧ (∀ n, n ≠ 6 → v.evb.flags.get n = s.evb.flags.get n) ∧ v.evb.enables = s.evb.enables := by
  have hports : (s.storeWarmUp ts warmUp).ports = s.ports := by rw [State.storeWarmUp_eq]
  have hframe : (s.storeWarmUp ts warmUp).csu = s.csu := by rw [State.storeWarmUp_eq]
  have hphase' : (s.storeWarmUp ts warmUp).phase = s.phase := by rw [State.storeWarmUp_eq]
  have hevb' : (s.storeWarmUp ts warmUp).evb = s.evb := by rw [State.storeWarmUp_eq]
  have hevb : v.evb = ((s.storeWarmUp ts warmUp).tileReports ((s.storeWarmUp ts warmUp).switchReports ts on)).foldl
      (fun e d => e.record d) s.evb := by
    rw [hv, State.switchPorts_eq, hphase', if_neg hphase, hevb']
  have hreport : ∀ t, (s.storeWarmUp ts warmUp).switchReports ts on t
      = if (s.ports.get t).state.name = (v.ports.get t).state.name then []
        else [.tileChange t (s.ports.get t).state.name (v.ports.get t).state.name none s.csu.frame] := fun t => by
    rw [State.switchReports_eq, ← hv, hports, hframe]
  have hchange : ∀ t, (s.storeWarmUp ts warmUp).switchReports ts on t ≠ [] ↔ s.PortChanges v t := fun t => by
    rw [hreport, State.PortChanges]
    split
    · next h => exact ⟨fun hn => absurd rfl hn, fun hn => absurd h.symm hn⟩
    · next h => exact ⟨fun _ he => h he.symm, fun _ => nofun⟩
  obtain ⟨hmasked, hnone, honly, hflags, henables⟩ := State.changes_reported hphase hevb (fun _ _ hd => changesThrough_masks hd) hchange
  refine ⟨hmasked, hnone, fun t ht hk => ?_, hflags, henables⟩
  rw [honly t ht hk, hreport, if_neg fun he => ht he.symm]
  rfl

end

/-- Settles O44: the warm-up stored, the table of R152 port by port, the changes reported, the states answered. -/
theorem portsSwitched : Obligations.PortsSwitched := by
  unfold Obligations.PortsSwitched
  refine ⟨fun s unit selector switch warmUp ht hbad => ?refused, fun s unit selector switch warmUp ht hsel hswitch => ?switched⟩
  case refused =>
    refine exec_replied (c := .tilePower selector switch warmUp) ht (hop := fun bytes => ?_)
    rcases hbad with hsel | hswitch
    · simp only [commandOp, opTilePower, selectedTiles_eq_none hsel]
    · simp only [commandOp, opTilePower, markOf_eq_none hswitch]
      cases selectedTiles selector <;> rfl
  case switched =>
    intro selected stored begun
    obtain ⟨ts, hts⟩ : ∃ ts, ts = (List.finRange 16).filter fun t => selector = 16 ∨ selector = t.val := ⟨_, rfl⟩
    have hmem : ∀ t, t ∈ ts ↔ selected t := fun t => by
      rw [hts, List.mem_filter, decide_eq_true_eq]
      exact and_iff_right (List.mem_finRange t)
    obtain ⟨u, hu⟩ : ∃ u, u = (s.storeWarmUp ts warmUp).switchPorts ts (decide (switch = 1)) := ⟨_, rfl⟩
    have hrow : exec (.tilePower unit selector switch warmUp) s = .next (State.replied u unit (.tilePower selector switch warmUp) .ok
        (.portStates (((List.finRange 16).filter fun t => selected t).map fun t => (t, (u.ports.get t).state.name)))) := by
      refine exec_replied (c := .tilePower selector switch warmUp) (t := u) ht (hop := fun bytes => ?_)
      have hafter : ((s.takeFrame bytes).storeWarmUp ts warmUp).switchPorts ts (decide (switch = 1)) = u.takeFrame bytes := by
        rw [hu]
        cases warmUp <;> rfl
      simp only [commandOp, opTilePower, selectedTiles_eq hsel, markOf_of_le hswitch, ← hts, hafter]
      rw [hts]
      rfl
    have hw : s.storeWarmUp ts warmUp = { s with tiles := (s.storeWarmUp ts warmUp).tiles } := State.storeWarmUp_eq _ _ _
    have htile : ∀ t, (s.storeWarmUp ts warmUp).tiles.get t
        = if selected t then { s.tiles.get t with warmUp := stored t } else s.tiles.get t := fun t =>
      State.storeWarmUp_get.trans (if_congr (hmem t) rfl rfl)
    have hport : ∀ t, u.ports.get t = if t ∈ ts then { s.ports.get t with
        state := (s.ports.get t).state.switched (decide (switch = 1)) (warmUpFrom s.now ((s.storeWarmUp ts warmUp).tiles.get t).warmUp) }
        else s.ports.get t := fun t => by
      rw [hu, State.switchPorts_get, hw]
    have htaken : ∀ t, selected t → u.ports.get t = { s.ports.get t with
        state := (s.ports.get t).state.switched (decide (switch = 1)) (begun t) } := fun t ht' => by
      rw [hport, if_pos ((hmem t).2 ht'), htile, if_pos ht']
      rfl
    have hphase : s.phase ≠ .starting := ht.1
    obtain ⟨hmasked, hnone, honly, hflags, henables⟩ := State.switchPorts_reported hphase hu
    refine ⟨u, hrow, ?_, fun t => ?_, fun t hn => ?_, htaken, fun t ht' ⟨a, n, ha⟩ hkind hs => ⟨?_, ?_⟩, hmasked, hnone, honly, hflags, henables⟩
    · rw [hu, State.switchPorts_eq, hw]
    · have htiles : u.tiles = (s.storeWarmUp ts warmUp).tiles := by rw [hu, State.switchPorts_eq]
      rw [htiles, htile]
    · rw [hport, if_neg fun h => hn ((hmem t).1 h)]
    · rw [State.linkDrive, ha]
    · have hdrains : (u.ports.get t).state = .draining .beforeBlack false := by
        rw [htaken t ht', ha, hs]
        rfl
      have hframes : u.frames = s.frames := by rw [hu, State.switchPorts_eq, hw]
      rw [State.linkDrive_unframed (by rw [hframes]; exact hkind), hdrains]

end Sys2Proof.Machine

/-! SUPPORT. The search for the next fetch and the grant rule; StoreGranted. -/

namespace Sys2Proof.Machine

/-! ### The search for the next fetch (R140) -/

section
variable {t : TileId} {g : Fetch} {l : List (TileId × Option Fetch)} {best : Option (TileId × Fetch)}

/-- The best found so far stays where none after it is due earlier. -/
theorem foldl_earlierFetch_keeps (h : ∀ v k, (v, some k) ∈ l → g.due ≤ k.due) : l.foldl earlierFetch (some (t, g)) = some (t, g) := by
  induction l with
  | nil => rfl
  | cons e l ih =>
    obtain ⟨v, o⟩ := e
    have hl := ih fun v k hk => h v k (List.mem_cons_of_mem _ hk)
    cases o with
    | none => exact hl
    | some k => simpa [earlierFetch, Nat.not_lt.2 (h v k List.mem_cons_self)] using hl

theorem earlierFetch_takes (h : ∀ v k, best = some (v, k) → g.due < k.due) : earlierFetch best (t, some g) = some (t, g) := by
  cases best with
  | none => rfl
  | some b => exact if_pos (h b.1 b.2 rfl)

/-- In ascending order of tiles the search finds the fetch due earliest, of equal ones the lowest tile. -/
theorem foldl_earlierFetch_finds (hsorted : l.Pairwise (·.1 < ·.1)) (hmem : (t, some g) ∈ l)
    (hbest : ∀ v k, best = some (v, k) → g.due < k.due)
    (hl : ∀ v k, (v, some k) ∈ l → g.due < k.due ∨ (g.due = k.due ∧ t ≤ v)) : l.foldl earlierFetch best = some (t, g) := by
  induction l generalizing best with
  | nil => exact absurd hmem List.not_mem_nil
  | cons e l ih =>
    obtain ⟨hhead, htail⟩ := List.pairwise_cons.1 hsorted
    have hrest : ∀ v k, (v, some k) ∈ l → g.due < k.due ∨ (g.due = k.due ∧ t ≤ v) := fun v k hk => hl v k (List.mem_cons_of_mem _ hk)
    rw [List.foldl_cons]
    rcases List.mem_cons.1 hmem with rfl | hlater
    · rw [earlierFetch_takes hbest]
      exact foldl_earlierFetch_keeps fun v k hk => (hrest v k hk).elim Nat.le_of_lt fun heq => Nat.le_of_eq heq.1
    · obtain ⟨u, o⟩ := e
      refine ih htail hlater (fun v k hk => ?_) hrest
      cases o with
      | none => exact hbest v k hk
      | some x =>
        have hx : g.due < x.due := (hl u x List.mem_cons_self).resolve_right fun heq => absurd (hhead _ hlater) (Nat.not_lt.2 heq.2)
        cases best with
        | none => cases hk; exact hx
        | some b =>
          simp only [earlierFetch] at hk
          split at hk
          · cases hk; exact hx
          · exact hbest v k hk

end

theorem Fsc.entries_sorted (f : Fsc) : f.fetches.entries.Pairwise (·.1 < ·.1) := by
  rw [Table.entries_eq, List.pairwise_map]
  exact List.pairwise_lt_finRange 16

section
variable {f : Fsc} {t : TileId} {g : Fetch} {now : Nat}

/-- The fetch taken, where none is being served that waits: the one due earliest, of equal ones the lowest tile. -/
theorem Fsc.earliest_lowest (hg : f.fetches.get t = some g) (hserved : ∀ v h, f.served = some (v, h) → g.due < h.due)
    (hfirst : ∀ v h, f.fetches.get v = some h → g.due < h.due ∨ (g.due = h.due ∧ t ≤ v)) : f.earliest = some (t, g) :=
  foldl_earlierFetch_finds f.entries_sorted (Fsc.mem_entries.2 hg) hserved fun v k hk => hfirst v k (Fsc.mem_entries.1 hk)

theorem Fsc.served_eq_some {v : TileId} {h : Fetch} (hserved : f.served = some (v, h)) : f.serving = some v ∧ f.fetches.get v = some h := by
  simp only [Fsc.served, Option.bind_eq_some_iff, Option.map_eq_some_iff, Prod.mk.injEq] at hserved
  obtain ⟨u, hs, k, hk, rfl, rfl⟩ := hserved
  exact ⟨hs, hk⟩

theorem Fsc.earliest_eq_none (h : ∀ t, f.fetches.get t = none) : f.earliest = none := by
  rcases f.earliest_cases with ⟨hnone, _⟩ | ⟨t, g, _, hg, _⟩
  · exact hnone
  · exact nomatch (h t).symm.trans hg

/-! ### The grant rule, case by case (R140) -/

theorem Fsc.granted_busy (h : f.burst ≠ none) : f.granted now = f := if_pos (Option.isSome_iff_ne_none.2 h)

theorem Fsc.granted_free (h : f.burst = none) : f.granted now = match f.upload with
    | none => match f.earliest with | some (t, g) => f.grantFetch now t g | none => f
    | some u => if f.owed then f.grantLoad now u else
      match f.earliest with
      | some (t, g) => f.grantFetch now t g
      | none => if loadBurstCharge ≤ f.budget then f.grantLoad now u else f := by
  rw [Fsc.granted, h]
  rfl

theorem Fsc.granted_fetch (hfree : f.burst = none) (hload : f.upload = none ∨ f.owed = false) (he : f.earliest = some (t, g)) :
    f.granted now = f.grantFetch now t g := by
  rw [Fsc.granted_free hfree]
  cases hu : f.upload with
  | none => simp only [he]
  | some u => simp only [he, hload.resolve_left (by simp [hu]), Bool.false_eq_true, if_false]

end

theorem Fsc.granted_load {f : Fsc} {u : UploadWrite} {now : Nat} (hfree : f.burst = none) (hu : f.upload = some u)
    (h : f.owed = true ∨ (f.earliest = none ∧ loadBurstCharge ≤ f.budget)) : f.granted now = f.grantLoad now u := by
  rw [Fsc.granted_free hfree]
  simp only [hu]
  rcases h with howed | ⟨hnone, hbudget⟩
  · exact if_pos howed
  · simp only [hnone, if_pos hbudget, ite_self]

/-- Settles O48: the four cases of R140, the fetch of the second by the search in ascending order of tiles. -/
theorem storeGranted : Obligations.StoreGranted := by
  unfold Obligations.StoreGranted
  refine ⟨fun now f h => Fsc.granted_busy h, fun now f u hfree hu hload => ?load, fun now f t g a n rest hfree hload hg hruns => ?fetch,
    fun now f hfree hnone hload => ?idle⟩
  case load =>
    rw [Fsc.granted_load hfree hu (hload.imp_right fun ⟨hnone, hbudget⟩ => ⟨Fsc.earliest_eq_none hnone, hbudget⟩)]
    rfl
  case fetch =>
    intro first hfirst
    have hwins : f.earliest = some (t, g) := by
      by_cases hs : f.serving = some t
      · exact Fsc.earliest_served hs hg fun v h hv => (hfirst v h hv).elim Nat.le_of_lt fun heq => Nat.le_of_eq heq.1
      · refine Fsc.earliest_lowest hg (fun v h hserved => ?_) fun v h hv => (hfirst v h hv).imp_right fun heq =>
          ⟨heq.1, (heq.2.resolve_left hs).1⟩
        obtain ⟨hv, hh⟩ := Fsc.served_eq_some hserved
        refine (hfirst v h hh).resolve_right fun heq => (heq.2.resolve_left hs).2 (fun hvt => hs (hvt ▸ hv)) hv
    rw [Fsc.granted_fetch hfree hload hwins, Fsc.grantFetch, Fetch.nextBurst, hruns]
    rfl
  case idle =>
    rw [Fsc.granted_free hfree, Fsc.earliest_eq_none hnone]
    rcases hload with hu | ⟨howed, hbudget⟩
    · rw [hu]
    · cases f.upload with
      | none => rfl
      | some u => simp only [howed, Bool.false_eq_true, if_false, show ¬ loadBurstCharge ≤ f.budget from Nat.not_le.2 hbudget]

end Sys2Proof.Machine

/-! SUPPORT. The end of a burst, case by case; BurstsEnd. -/

namespace Sys2Proof.Machine

/-! ### The rows -/

section
variable {s : State} {b : Burst}

theorem exec_burstEnd (hb : s.fsc.burst = some b) (hin : b.address + b.length ≤ storePages s.clc.straps.store * 4096) :
    exec .burstEnd s = .next (s.endBurst b) := by
  have hinside : s.burstInside b = true := decide_eq_true hin
  show execBurstEnd s = _
  unfold execBurstEnd
  rw [hb]
  exact if_pos hinside

theorem State.lastLoadBurst_eq {u : UploadWrite} (hb : s.fsc.burst = some b) (hk : b.kind = .load) (hu : s.fsc.upload = some u) :
    s.lastLoadBurst = if u.data.length ≤ b.length then some b else none := by
  simp only [State.lastLoadBurst, hb, hu, hk, decide_true, Bool.true_and, decide_eq_true_eq]

/-- UPLOAD_COMPLETE is nothing while the upload write has bytes left for a later burst. -/
theorem exec_uploadComplete_early {u : UploadWrite} (hb : s.fsc.burst = some b) (hk : b.kind = .load) (hu : s.fsc.upload = some u)
    (hlen : b.length < u.data.length) : exec .uploadComplete s = .next s := by
  show execUploadComplete s = _
  unfold execUploadComplete
  rw [State.lastLoadBurst_eq hb hk hu, if_neg (Nat.not_le.2 hlen)]

/-- UPLOAD_COMPLETE and the end of the upload write's last burst are one event. -/
theorem exec_uploadComplete_last {u : UploadWrite} (hb : s.fsc.burst = some b) (hk : b.kind = .load) (hu : s.fsc.upload = some u)
    (hlen : u.data.length ≤ b.length) : exec .uploadComplete s = exec .burstEnd s := by
  show execUploadComplete s = execBurstEnd s
  unfold execUploadComplete execBurstEnd
  rw [State.lastLoadBurst_eq hb hk hu, if_pos hlen, hb]

/-! ### A fetch burst -/

theorem Fetch.runsAfterBurst_eq {g : Fetch} {a n : Nat} {rest : List (Nat × Nat)} (h : g.runs = (a, n) :: rest) :
    g.runsAfterBurst = if n ≤ 256 then rest else (a + 256, n - 256) :: rest := by
  rw [Fetch.runsAfterBurst, h]
  rfl

/-- The end of a fetch burst: the fetch with its runs left, or complete and its line formed (R139). -/
theorem State.fetchBurstDone_left {t : TileId} {g : Fetch} {left : List (Nat × Nat)} (hg : s.fsc.fetches.get t = some g)
    (hleft : g.runsAfterBurst = left) : s.fetchBurstDone t = { s with
      fsc := { s.fsc with
        fetches := s.fsc.fetches.set t (if left = [] then none else some { g with runs := left })
        serving := if left = [] ∧ s.fsc.serving = some t then none else s.fsc.serving }
      cmp := if left = [] then s.cmp.set t { s.cmp.get t with formed := some (s.formLine t g.line) } else s.cmp } := by
  unfold State.fetchBurstDone
  simp only [hg, hleft, Table.modify_eq_set]
  by_cases hl : left = []
  · simp only [hl, true_and]
    rfl
  · simp only [hl, false_and, if_false]

/-! ### A load burst -/

theorem State.loadBurstDone_early {u : UploadWrite} (hu : s.fsc.upload = some u) (hlen : b.length < u.data.length) :
    s.loadBurstDone b = s.written b u := by
  rw [State.loadBurstDone_some s hu, if_neg]
  exact fun h => absurd (List.drop_eq_nil_iff.1 h) (Nat.not_le.2 hlen)

theorem State.loadBurstDone_last {u : UploadWrite} (hu : s.fsc.upload = some u) (hlen : u.data.length ≤ b.length) :
    s.loadBurstDone b = (s.written b u).completeUpload := by
  rw [State.loadBurstDone_some s hu, if_pos (List.drop_eq_nil_iff.2 hlen)]

/-- What the end of a load burst has written: its own bytes and no other (R143). -/
theorem State.read_written {u : UploadWrite} (h : Memory.wf s.store) (x : Nat) : Memory.read (s.written b u).store x
    = if b.address ≤ x ∧ x < b.address + min b.length u.data.length then u.data[x - b.address]? else Memory.read s.store x := by
  refine (Memory.read_writeBytes (u.data.take b.length) h b.address x).trans ?_
  rw [List.length_take]
  refine ite_congr rfl (fun hx => ?_) fun _ => rfl
  rw [List.getElem?_take, if_pos (by omega)]

/-- The part with a surface READY, before RDY is re-tested. -/
def State.readied (s : State) (i : SurfaceId) (d : Desc) : State :=
  { s with sdir := s.sdir.set i { s.sdir.get i with state := .ready d } }

/-- The end of the upload write of an UPLOAD that executes on a LOADING surface (R28). -/
theorem State.completeUpload_loading {e : Executing} {i : SurfaceId} {taken loaded : Nat} {d : Desc}
    (he : s.clc.executing = some e) (hjob : e.job = .upload i taken) (hd : s.surface i = .loading d loaded) :
    s.completeUpload = { s with
      fsc := { s.fsc with upload := none, waitMark := false, owed := false }
      sdir := s.sdir.set i { s.sdir.get i with
        state := if loaded + taken = d.totalBytes then .ready d else .loading d (loaded + taken) }
      clc := { s.clc with
        executing := none
        response := if e.broadcast then s.clc.response else some ⟨.ok, e.code, e.overrun, .uploaded taken (loaded + taken)⟩
        lastBroadcast := if e.broadcast then some (e.code, .ok) else s.clc.lastBroadcast }
      evb := if loaded + taken = d.totalBytes then s.told (.surfaceReady i) else s.evb
      csu := if loaded + taken = d.totalBytes then (s.readied i d).retestRdy.csu else s.csu } := by
  rw [s.completeUpload_upload he hjob, hd, SurfaceState.loadedMore]
  by_cases hfull : loaded + taken = d.totalBytes
  · have hexecuting : (State.retestRdy (State.report (.surfaceReady i)
        (State.setSurface i (.ready d) { s with fsc := s.fsc.endUpload }))).clc.executing = some e := he
    simp only [hfull, if_true, SurfaceState.isReady]
    rw [State.returnResult, hexecuting]
    simp only [State.deliver, State.setSurface, Table.modify_eq_set, SurfaceState.loadedCount]
    rw [← hfull]
    rfl
  · have hexecuting : (State.setSurface i (.loading d (loaded + taken)) { s with fsc := s.fsc.endUpload }).clc.executing = some e := he
    simp only [hfull, if_false, SurfaceState.isReady, Bool.false_eq_true]
    rw [State.returnResult, hexecuting]
    simp only [State.deliver, State.setSurface, Table.modify_eq_set]
    rfl

end

/-- Settles O50: the cases of the burst's end, by its kind and by what the fetch or the upload write has left. -/
theorem burstsEnd : Obligations.BurstsEnd := by
  unfold Obligations.BurstsEnd
  intro s b hb hin now grant
  have hrow : exec .burstEnd s = .next (s.endBurst b) := exec_burstEnd hb hin
  refine ⟨fun t hk => ?stale, fun t g a n rest hk hg hruns => ?fetch, fun u hk hu hlen => ?early,
    fun u e i taken d loaded hk hu hlen he hjob hd => ?last⟩
  case stale =>
    rw [hrow, State.endBurst_stale s hk]
    rfl
  case fetch =>
    intro left
    rw [hrow, State.endBurst_fetch s hk, State.fetchBurstDone_left (s := s.freed b) hg (Fetch.runsAfterBurst_eq hruns)]
    rfl
  case early =>
    refine ⟨_, hrow, exec_uploadComplete_early hb hk hu hlen, ?_, fun hwf x => ?_⟩
    · rw [State.endBurst_load s hk, State.loadBurstDone_early (s := s.freed b) hu hlen]
      rfl
    · rw [State.endBurst_load s hk, State.loadBurstDone_early (s := s.freed b) hu hlen]
      exact (State.read_written (s := s.freed b) hwf x).trans (by rw [Nat.min_eq_left (Nat.le_of_lt hlen)]; rfl)
  case last =>
    have hended : s.endBurst b = (((s.freed b).written b u).completeUpload).grant := by
      rw [State.endBurst_load s hk, State.loadBurstDone_last (s := s.freed b) hu hlen]
    have hdone := State.completeUpload_loading (s := (s.freed b).written b u) he hjob hd
    refine ⟨exec_uploadComplete_last hb hk hu hlen, _, hrow, ?_, fun hfull => ?_, fun hmore => ?_, fun hwf x => ?_⟩
    · rw [hended, hdone]
      rfl
    · have hcsu : (s.endBurst b).csu = (((s.freed b).written b u).readied i d).retestRdy.csu := by
        rw [hended, hdone]
        exact if_pos hfull
      have hchain : (((s.freed b).written b u).readied i d).retestRdy.SameChain (s.endBurst b) := by
        refine State.sameChain_of_eq ?_ (by rw [hcsu]) ?_
        · rw [hended, hdone, if_pos hfull]
          rfl
        · rw [hended, hdone]
          rfl
      refine State.retestedAs_of_retest (u := ((s.freed b).written b u).readied i d) rfl (fun h => h.congr ⟨fun _ => rfl, rfl, rfl, rfl, rfl⟩)
        hchain hcsu ?_ ?_
      · rw [hended, hdone]
        rfl
      · rw [hended, hdone]
        rfl
    · rw [hended, hdone]
      exact if_neg hmore
    · rw [hended, hdone]
      exact (State.read_written (s := s.freed b) hwf x).trans (by rw [Nat.min_eq_right hlen]; rfl)

end Sys2Proof.Machine

/-! SUPPORT. Requests of lines and the line at its due time, case by case; LinesSent. -/

namespace Sys2Proof.Machine

/-! ### Requests (R138) -/

section
variable {s : State} {t : TileId} {py : Nat}

theorem State.wantsLine_iff : s.wantsLine t py = true
    ↔ s.phase ≠ .starting ∧ (s.frames.get t).kind = .picture ∧ py < (s.frames.get t).panelH := by
  simp [State.wantsLine, and_assoc]

/-- A line requested: its fetch joins the queue, or needs no bytes and the line is formed (R138, R139). -/
theorem State.requestLine_eq : s.requestLine t py = { s with
    fsc := { s.fsc with fetches := if s.wantsLine t py = true ∧ lineRuns (s.frames.get t) py ≠ [] then
        s.fsc.fetches.set t (some ⟨py, s.lineDueAt (s.frames.get t).panelH py, lineRuns (s.frames.get t) py⟩)
      else s.fsc.fetches }
    cmp := if s.wantsLine t py = true ∧ lineRuns (s.frames.get t) py = [] then
        s.cmp.set t { s.cmp.get t with formed := some (s.formLine t py) }
      else s.cmp } := by
  unfold State.requestLine
  simp only [Table.modify_eq_set, Bool.and_eq_true, Bool.not_eq_true', List.isEmpty_iff, List.isEmpty_eq_false_iff]

theorem State.requestLine_unwanted (h : ¬ s.wantsLine t py = true) : s.requestLine t py = s := by
  rw [State.requestLine_eq, if_neg fun hn => h hn.1, if_neg fun hn => h hn.1]

/-- The request of the line after one that was sent. -/
theorem State.requestLine_advanced {f : FrameRec} (hf : s.frames.get t = f) (hk : f.kind = .picture) {requested : Prop}
    [Decidable requested] (hr : requested ↔ s.phase ≠ .starting ∧ py < f.panelH) : (s.advanceLine t).requestLine t py = { s with
      frames := s.frames.set t { f with nextLine := f.nextLine + 1 }
      fsc := { s.fsc with fetches := if requested ∧ lineRuns f py ≠ [] then
          s.fsc.fetches.set t (some ⟨py, s.lineDueAt f.panelH py, lineRuns f py⟩)
        else s.fsc.fetches }
      cmp := if requested ∧ lineRuns f py = [] then
          s.cmp.set t { s.cmp.get t with formed := some (composeLine s.storeByte s.bgNow f py) }
        else s.cmp } := by
  have hframes : (s.advanceLine t).frames = s.frames.set t { f with nextLine := f.nextLine + 1 } := by
    rw [State.advanceLine_frames, Table.modify_eq_set, hf]
  have hget : (s.advanceLine t).frames.get t = { f with nextLine := f.nextLine + 1 } := by rw [hframes, Table.get_set_self]
  have hwants : (s.advanceLine t).wantsLine t py = true ↔ requested := by
    rw [State.wantsLine_iff, hget, hr]
    exact and_congr_right fun _ => and_iff_right hk
  rw [State.requestLine_eq]
  simp only [hwants, State.formLine, hget]
  rw [State.advanceLine, Table.modify_eq_set, hf]
  rfl

/-! ### What is sent (R145, R161) -/

/-- A frame of one colour sends the colour and requests nothing. -/
theorem State.requestLine_advanced_solid (hk : (s.frames.get t).kind ≠ .picture) :
    (s.advanceLine t).requestLine t py = s.advanceLine t := by
  refine State.requestLine_unwanted fun h => hk ?_
  have hkind := (State.wantsLine_iff.1 h).2.1
  rw [State.advanceLine_frames, Table.get_modify_self] at hkind
  exact hkind

theorem State.sendDueLine_solid {c : Rgb} (h : ((s.frames.get t).kind = .flat ∧ c = (s.frames.get t).flat)
      ∨ ((s.frames.get t).kind = .black ∧ c = ⟨0, 0, 0⟩)) :
    s.sendDueLine t py = s.putLine t (flatLine (s.frames.get t).panelW (s.frames.get t).level c) := by
  rcases h with ⟨hk, rfl⟩ | ⟨hk, rfl⟩ <;> simp only [State.sendDueLine, hk]

/-- A PICTURE line sent: as formed; or, late, the line of the underrun, its fetch cancelled, counted and reported (R145, R146). -/
theorem State.sendDueLine_picture {line : List Rgb} {late : Prop} [Decidable late] (hk : (s.frames.get t).kind = .picture)
    (hline : line = ((s.cmp.get t).formed).getD (s.underrunLine t py)) (hlate : late ↔ (s.cmp.get t).formed = none) : s.sendDueLine t py = { s with
      links := s.links.set t { s.links.get t with line := some line }
      cmp := s.cmp.set t ⟨none, some line, if late then min 65535 ((s.cmp.get t).underruns + 1) else (s.cmp.get t).underruns⟩
      fsc := if late then s.fsc.cancelFetch t else s.fsc
      evb := if late then s.told (.underrun t s.csu.frame py) else s.evb } := by
  simp only [if_congr hlate rfl rfl]
  simp only [State.sendDueLine, hk, hline]
  cases hformed : (s.cmp.get t).formed with
  | some sent => simp only [State.sendPicture, State.putLine, Table.modify_eq_set, Option.getD_some, reduceCtorEq, if_false]
  | none =>
    simp only [State.underrun, State.sendPicture, State.putLine, State.report, State.told, Table.modify_eq_set, Table.set_set,
      Table.get_set_self, Option.getD_none, if_true]

/-- The next request after a line, its fetch cancelled first where the line was late. -/
theorem Fsc.requested_cancelled (f : Fsc) (late requested : Prop) [Decidable late] [Decidable requested] (g : Option Fetch) :
    { (if late then f.cancelFetch t else f) with
      fetches := if requested then ((if late then f.cancelFetch t else f).fetches).set t g
        else (if late then f.cancelFetch t else f).fetches }
    = { f with
      fetches := if requested then f.fetches.set t g else if late then f.fetches.set t none else f.fetches
      burst := if late then f.burst.map (Burst.cancelledFor t) else f.burst
      serving := if late ∧ f.serving = some t then none else f.serving } := by
  by_cases hlate : late
  · simp only [hlate, if_true, true_and, Fsc.cancelFetch_eq, Table.set_set]
  · simp only [hlate, if_false, false_and]

/-- The record of a tile with its line formed where a condition holds. -/
theorem Table.set_formed (tab : Table CmpTile 16) (c : CmpTile) (line : Option (List Rgb)) (p : Prop) [Decidable p] :
    (if p then (tab.set t c).set t { (tab.set t c).get t with formed := line } else tab.set t c)
      = tab.set t { c with formed := if p then line else c.formed } := by
  split <;> simp only [Table.set_set, Table.get_set_self]

/-! ### The row -/

theorem exec_lineDue_idle (h : kindHasLines (s.frames.get t).kind = false ∨ (s.frames.get t).panelH ≤ (s.frames.get t).nextLine) :
    exec (.lineDue t) s = .next s := by
  refine if_neg fun hdue => ?_
  simp only [Bool.and_eq_true, decide_eq_true_eq] at hdue
  rcases h with hkind | hdone
  · exact nomatch hkind.symm.trans hdue.1
  · exact absurd hdue.2 (Nat.not_lt.2 hdone)

theorem exec_lineDue {f : FrameRec} (hf : s.frames.get t = f) (hkind : kindHasLines f.kind = true) (hleft : f.nextLine < f.panelH) :
    exec (.lineDue t) s = .next ((((s.atLeast (s.lineDueAt f.panelH f.nextLine)).sendDueLine t f.nextLine).advanceLine t).requestLine t
      (f.nextLine + 1)).grant := by
  subst hf
  exact if_pos (by simp only [hkind, hleft, decide_true, Bool.and_self])

/-- The row of a PICTURE line: the line sent, in time or late, and the next one requested. -/
theorem exec_lineDue_picture {f : FrameRec} {line : List Rgb} {requested late : Prop} [Decidable requested] [Decidable late]
    (hf : s.frames.get t = f) (hk : f.kind = .picture) (hleft : f.nextLine < f.panelH)
    (hline : line = ((s.cmp.get t).formed).getD (s.underrunLine t f.nextLine)) (hlate : late ↔ (s.cmp.get t).formed = none)
    (hr : requested ↔ s.phase ≠ .starting ∧ f.nextLine + 1 < f.panelH) :
    exec (.lineDue t) s = .next { s with
      now := max s.now (s.lineDueAt f.panelH f.nextLine)
      links := s.links.set t { s.links.get t with line := some line }
      frames := s.frames.set t { f with nextLine := f.nextLine + 1 }
      cmp := s.cmp.set t {
        formed := if requested ∧ lineRuns f (f.nextLine + 1) = [] then some (composeLine s.storeByte s.bgNow f (f.nextLine + 1)) else none
        previous := some line
        underruns := if late then min 65535 ((s.cmp.get t).underruns + 1) else (s.cmp.get t).underruns }
      fsc :=
        let asked := { s.fsc with
          fetches := if requested ∧ lineRuns f (f.nextLine + 1) ≠ [] then s.fsc.fetches.set t
              (some ⟨f.nextLine + 1, s.lineDueAt f.panelH (f.nextLine + 1), lineRuns f (f.nextLine + 1)⟩)
            else if late then s.fsc.fetches.set t none else s.fsc.fetches
          burst := if late then s.fsc.burst.map (Burst.cancelledFor t) else s.fsc.burst
          serving := if late ∧ s.fsc.serving = some t then none else s.fsc.serving }
        if s.phase = .starting then asked else asked.granted (max s.now (s.lineDueAt f.panelH f.nextLine))
      evb := if late then s.told (.underrun t s.csu.frame f.nextLine) else s.evb } := by
  have hkind : (s.frames.get t).kind = .picture := hf ▸ hk
  have hsent := State.sendDueLine_picture (s := s.atLeast (s.lineDueAt f.panelH f.nextLine)) hkind hline hlate
  obtain ⟨m, hm⟩ : ∃ m, m = (s.atLeast (s.lineDueAt f.panelH f.nextLine)).sendDueLine t f.nextLine := ⟨_, rfl⟩
  rw [← hm] at hsent
  have hbytes : m.storeByte = s.storeByte := by rw [hsent]; rfl
  have hbg : m.bgNow = s.bgNow := by rw [hsent]; rfl
  have hdue : m.lineDueAt = s.lineDueAt := by rw [hsent]; rfl
  rw [exec_lineDue hf (by rw [hk]; rfl) hleft, ← hm,
    State.requestLine_advanced (s := m) (requested := requested) (by rw [hsent]; exact hf) hk (by rw [hsent]; exact hr), hbytes, hbg, hdue,
    ← Fsc.requested_cancelled, hsent]
  simp only [Table.set_formed]
  rfl

end

/-- Settles O51: nothing where no line is due; the solid line; the PICTURE line, in time or late, and the next request. -/
theorem linesSent : Obligations.LinesSent := by
  unfold Obligations.LinesSent
  intro s t f dueOf now grant solid
  refine ⟨fun hidle => ?idle, fun c hleft hsolid => ?solid, fun hleft hk => ?picture⟩
  case idle =>
    refine exec_lineDue_idle (hidle.imp_left fun hkind => ?_)
    have hkinds : ∀ k ∈ [FrameKind.hold, .idle, .none], kindHasLines k = false := by decide
    exact hkinds _ hkind
  case solid =>
    have hlines : kindHasLines f.kind = true := by
      rcases hsolid with ⟨hk, _⟩ | ⟨hk, _⟩ <;> rw [hk] <;> rfl
    have hkind : f.kind ≠ .picture := by
      rcases hsolid with ⟨hk, _⟩ | ⟨hk, _⟩ <;> rw [hk] <;> nofun
    rw [exec_lineDue (f := f) rfl hlines hleft, State.sendDueLine_solid (s := s.atLeast _) hsolid,
      State.requestLine_advanced_solid (s := State.putLine _ _ (s.atLeast _)) hkind]
    simp only [State.advanceLine, State.putLine, Table.modify_eq_set]
    rfl
  case picture =>
    intro runs requested late
    obtain ⟨line, hline⟩ : ∃ line, line = ((s.cmp.get t).formed).getD (s.underrunLine t f.nextLine) := ⟨_, rfl⟩
    have hlate : late → line = s.underrunLine t f.nextLine := fun h => by rw [hline, show (s.cmp.get t).formed = none from h]; rfl
    refine ⟨_, line, exec_lineDue_picture (f := f) (requested := requested) (late := late) rfl hk hleft hline Iff.rfl Iff.rfl, ?_,
      fun formed h => by rw [hline, h]; rfl, fun h hfirst => ?_, fun before h hn hbefore => ?_, rfl, Table.get_set_self _ _ _, rfl⟩
    · rw [Table.get_set_self]
      rfl
    · rw [hlate h, State.underrunLine]
      rcases hfirst with hfirst | hnone
      · exact if_pos hfirst
      · rw [hnone]
        exact ite_self _
    · rw [hlate h, State.underrunLine, hbefore]
      exact if_neg hn

end Sys2Proof.Machine

/-! SUPPORT. The end of a boundary, port by port: the steps and their reports, the frames, the first lines; FramesOpened. -/

namespace Sys2Proof.Machine

/-! ### The step of a port and its reports (R151, R154 to R156) -/

section
variable {s : State} {t : TileId} {f : Frame} {now milliseconds : Nat} {p : Port}

theorem Port.atBoundary_drains {r : Bool} (h : p.state = .draining .beforeBlack r) :
    (p.atBoundary now milliseconds).1.state = .draining .blackSent r := by
  rw [Port.atBoundary, h]
  rfl

/-- A port passes through one state at most, but for the end of a drain with a restart, which passes through OFF. -/
theorem changesThrough_atBoundary : changesThrough t f p.state (p.atBoundary now milliseconds).2
    = match p.state with
      | .draining .blackSent true => [.tileChange t .draining .off none f, .tileChange t .off .powering none f]
      | _ => changeOf t f p.state (p.atBoundary now milliseconds).1.state := by
  cases hs : p.state with
  | training a n =>
    simp only [Port.atBoundary, hs]
    split
    · rfl
    · unfold attemptFail
      split <;> rfl
  | up =>
    simp only [Port.atBoundary, hs]
    split
    · rfl
    · split <;> rfl
  | draining stage restart =>
    cases stage <;> cases restart <;> simp only [Port.atBoundary, hs] <;> rfl
  | off => simp only [Port.atBoundary, hs]; rfl
  | powering e => simp only [Port.atBoundary, hs]; rfl
  | lost => simp only [Port.atBoundary, hs]; rfl
  | fault => simp only [Port.atBoundary, hs]; rfl

theorem State.portReports_eq : s.portReports t = match (s.ports.get t).state with
    | .draining .blackSent true => [.tileChange t .draining .off none s.csu.frame, .tileChange t .off .powering none s.csu.frame]
    | _ => changeOf t s.csu.frame (s.ports.get t).state (s.portStep t).1.state := changesThrough_atBoundary

theorem changeOf_ne_nil {old new : PortState} : changeOf t f old new ≠ [] ↔ new.name ≠ old.name := by
  unfold changeOf
  split
  · next h => exact ⟨fun hn => absurd rfl hn, fun hn => absurd h.symm hn⟩
  · next h => exact ⟨fun _ he => h he.symm, fun _ => nofun⟩

theorem State.portReports_ne_nil : s.portReports t ≠ [] ↔ (s.portStep t).1.state.name ≠ (s.ports.get t).state.name := by
  rw [State.portReports_eq]
  split
  · next h =>
    refine iff_of_true nofun ?_
    rw [State.portStep, Port.atBoundary, h]
    nofun
  · exact changeOf_ne_nil

end

/-! ### Requests of first lines (R138, R147) -/

section
variable {s : State} {t : TileId}

/-- What a request leaves of a tile's fetch and line. -/
theorem State.requestLine_get (k t : TileId) (py : Nat) :
    (s.requestLine k py).fsc.fetches.get t = (if t = k ∧ s.wantsLine t py = true ∧ lineRuns (s.frames.get t) py ≠ [] then
        some ⟨py, s.lineDueAt (s.frames.get t).panelH py, lineRuns (s.frames.get t) py⟩
      else s.fsc.fetches.get t)
    ∧ (s.requestLine k py).cmp.get t = { s.cmp.get t with
        formed := if t = k ∧ s.wantsLine t py = true ∧ lineRuns (s.frames.get t) py = [] then some (s.formLine t py)
          else (s.cmp.get t).formed } := by
  rw [State.requestLine_eq]
  by_cases htk : t = k
  · subst htk
    simp only [true_and]
    refine ⟨?_, ?_⟩ <;> split <;> simp only [Table.get_set_self]
  · simp only [htk, false_and, if_false]
    have hkt : k ≠ t := fun h => htk h.symm
    refine ⟨?_, ?_⟩ <;> split <;> simp only [Table.get_set_ne _ _ hkt]

/-- What the requests leave of one tile's fetch and line. -/
theorem State.foldl_requestLine_get (ts : List TileId) (py : Nat) (s : State) :
    let u := ts.foldl (fun s t => s.requestLine t py) s
    u.fsc = { s.fsc with fetches := u.fsc.fetches }
      ∧ ∀ t, u.fsc.fetches.get t = (if t ∈ ts ∧ s.wantsLine t py = true ∧ lineRuns (s.frames.get t) py ≠ [] then
            some ⟨py, s.lineDueAt (s.frames.get t).panelH py, lineRuns (s.frames.get t) py⟩
          else s.fsc.fetches.get t)
        ∧ u.cmp.get t = { s.cmp.get t with
            formed := if t ∈ ts ∧ s.wantsLine t py = true ∧ lineRuns (s.frames.get t) py = [] then some (s.formLine t py)
              else (s.cmp.get t).formed } := by
  induction ts generalizing s with
  | nil => exact ⟨rfl, fun t => ⟨rfl, rfl⟩⟩
  | cons k ts ih =>
    intro u
    obtain ⟨hfsc, hget⟩ := ih (s.requestLine k py)
    obtain ⟨m, hm⟩ : ∃ m, m = s.requestLine k py := ⟨_, rfl⟩
    have hu : u = ts.foldl (fun s t => s.requestLine t py) m := by rw [hm]; rfl
    rw [← hm] at hfsc hget
    have hone := fun t => State.requestLine_get (s := s) k t py
    rw [← hm] at hone
    rw [hu]
    rw [State.requestLine_eq] at hm
    refine ⟨by rw [hfsc, hm], fun t => ?_⟩
    have hwants : m.wantsLine t py = s.wantsLine t py := by rw [hm]; rfl
    have hframes : m.frames = s.frames := by rw [hm]
    have hdue : m.lineDueAt = s.lineDueAt := by rw [hm]; rfl
    have hformed : m.formLine t py = s.formLine t py := by rw [hm]; rfl
    obtain ⟨hfetch, hcmp⟩ := hget t
    rw [hwants, hframes, hdue, (hone t).1] at hfetch
    rw [hwants, hframes, hformed, (hone t).2] at hcmp
    have hmem : t ∈ k :: ts ↔ t ∈ ts ∨ t = k := List.mem_cons.trans or_comm
    simp only [hfetch, hcmp, hmem, or_and_right, ite_or, and_self]

end

/-! ### The frames (R125, R159 to R162) -/

section
variable {s : State} {old : Table Port 16} {t : TileId}

theorem upKind_eq (mode : Mode) (blackout running locked hasRect : Bool) : upKind mode blackout running locked hasRect
    = if mode = .idle then .idle
      else if blackout = true then .black
      else if ¬ running = true then .black
      else if ¬ locked = true ∧ mode = .picture then .hold
      else if mode = .picture ∧ ¬ hasRect = true then .black
      else mode.kind := by
  simp only [upKind, Bool.not_eq_true]

/-- The kind of a frame (R156, R160). -/
theorem State.decideKind_eq : s.decideKind old t =
    if (∃ r, (old.get t).state = .draining .beforeBlack r) then .black
    else if (s.ports.get t).state ≠ .up then .none
    else if (s.tiles.get t).mode = .idle then .idle
    else if s.csu.blackoutFlag = true then .black
    else if s.phase ≠ .running then .black
    else if s.csu.sync ≠ .locked ∧ (s.tiles.get t).mode = .picture then .hold
    else if (s.tiles.get t).mode = .picture ∧ s.held.rects.get t = none then .black
    else (s.tiles.get t).mode.kind := by
  unfold State.decideKind
  split
  · next r hr => exact (if_pos ⟨r, hr⟩).symm
  · next hn =>
    rw [if_neg (show ¬ ∃ r, (old.get t).state = .draining .beforeBlack r from fun ⟨r, hr⟩ => hn r hr), ite_not, upKind_eq]
    simp only [decide_eq_true_eq, Option.isSome_iff_ne_none, not_not, ne_eq]

/-- A PICTURE frame is decided while RUNNING. -/
theorem State.running_of_picture (h : s.decideKind old t = .picture) : s.phase = .running := by
  rw [State.decideKind_eq] at h
  by_contra hn
  rw [if_pos (show s.phase ≠ .running from hn)] at h
  split_ifs at h

/-- What the compositor draws of a record in frame `f`. -/
theorem State.entryOf_eq (f : Frame) (i : PlacementId) : s.entryOf f i = match s.ptab.get i with
    | .live _ v since _ _ => some ⟨v, s.cellOf v (f - since).toNat, effectiveWeight v ((s.ptab.get i).fadeWeight f), (s.surface v.surface).desc⟩
    | .fading _ v since _ _ => some ⟨v, s.cellOf v (f - since).toNat, effectiveWeight v ((s.ptab.get i).fadeWeight f), (s.surface v.surface).desc⟩
    | _ => none := by
  have hcells : ∀ d : Option Desc, (d.map (·.cells)).getD 1 = match d with | some d => d.cells | none => 1 := fun d => by cases d <;> rfl
  unfold State.entryOf State.cellOf
  cases s.ptab.get i with
  | free => rfl
  | staged g v => rfl
  | live g v since e p =>
    simp only [Placement.shown, hcells]
    rfl
  | fading g v since c e =>
    simp only [Placement.shown, hcells]
    rfl

theorem kindHasLines_iff (k : FrameKind) : kindHasLines k = true ↔ k ∈ [FrameKind.picture, .flat, .black] := by
  cases k <;> decide

theorem LinkOut.begin_headerOf (frame : Frame) (f : FrameRec) (l : LinkOut) :
    (f.kind ≠ .none → (l.begin (headerOf frame f)).header = some
        ⟨frame.setWidth 16, if f.kind ∈ [.picture, .flat, .black] then f.panelH else 0, f.kind⟩
      ∧ (l.begin (headerOf frame f)).line = l.line)
    ∧ (f.kind = .none → l.begin (headerOf frame f) = l) := by
  refine ⟨fun hk => ?_, fun hk => ?_⟩
  · rw [headerOf, if_neg hk, if_congr (kindHasLines_iff f.kind) rfl rfl]
    exact ⟨rfl, rfl⟩
  · rw [headerOf, if_pos hk]
    rfl

end

/-! ### The end of a boundary, part by part -/

/-- The part after the steps of its ports and FRAME_TICK, before the frames are opened (entry 15). -/
def State.stepped (s : State) : State := s.stepPorts.report (.frameTick s.csu.frame)

section
variable {s : State} {t : TileId} {f : FrameRec}

theorem State.stepped_port : s.stepped.ports.get t = (s.portStep t).1 := Table.get_ofFn _ _

/-- The part with its frames opened. -/
def State.opened (s : State) : State := s.stepped.openFrames s.ports

theorem State.opened_frame : s.opened.frames.get t = s.stepped.openFrameOf s.ports t := Table.get_ofFn _ _

theorem State.closeBoundary_opened : s.closeBoundary = s.opened.requestFirstLines.grant := rfl

theorem State.requestFirstLines_eq (m : State) :
    m.requestFirstLines = { m with fsc := m.requestFirstLines.fsc, cmp := m.requestFirstLines.cmp } :=
  State.foldl_requestLine_eq (List.finRange 16) 0 m

theorem State.closeBoundary_ports : s.closeBoundary.ports = s.stepped.ports := by
  rw [State.closeBoundary_opened, State.grant_ports, State.requestFirstLines_eq]
  rfl

theorem State.closeBoundary_frame : s.closeBoundary.frames.get t = s.stepped.openFrameOf s.ports t := by
  rw [State.closeBoundary_opened, State.grant_frames, State.requestFirstLines_eq]
  exact State.opened_frame

theorem State.closeBoundary_link :
    s.closeBoundary.links.get t = (s.links.get t).begin (headerOf s.csu.frame (s.stepped.openFrameOf s.ports t)) := by
  rw [State.closeBoundary_opened, State.grant_links, State.requestFirstLines_eq]
  exact Table.get_mapIdx _ _ _

theorem State.closeBoundary_granted : s.closeBoundary.fsc
    = if s.phase = .starting then s.opened.requestFirstLines.fsc else s.opened.requestFirstLines.fsc.granted s.now := by
  rw [State.closeBoundary_opened, State.grant_fsc, State.requestFirstLines_eq]
  rfl

theorem State.closeBoundary_fetches : s.closeBoundary.fsc.fetches = s.opened.requestFirstLines.fsc.fetches := by
  rw [State.closeBoundary_granted]
  split
  · rfl
  · exact Fsc.granted_fetches _ _

/-- The store controller after a boundary: the fetches cancelled, line 0 requested, the store granted. -/
theorem State.closeBoundary_fsc :
    let held := { s.fsc with fetches := s.closeBoundary.fsc.fetches, burst := s.fsc.burst.map Burst.cancelled, serving := none }
    s.closeBoundary.fsc = if s.phase = .starting then held else held.granted s.now := by
  intro held
  have hheld : s.opened.requestFirstLines.fsc = held := by
    have hcancelled := (State.foldl_requestLine_get (List.finRange 16) 0 s.opened).1
    refine hcancelled.trans ?_
    rw [show held = { s.fsc with fetches := s.closeBoundary.fsc.fetches, burst := s.fsc.burst.map Burst.cancelled, serving := none } from rfl,
      State.closeBoundary_fetches]
    rfl
  rw [State.closeBoundary_granted, hheld]

/-- Whether line 0 of a tile is requested: a frame of kind PICTURE is opened while RUNNING alone. -/
theorem State.opened_wantsLine (h : s.closeBoundary.frames.get t = f) : s.opened.wantsLine t 0 = true ↔ f.kind = .picture ∧ 0 < f.panelH := by
  have hf : s.opened.frames.get t = f := State.opened_frame.trans (State.closeBoundary_frame.symm.trans h)
  rw [State.wantsLine_iff, hf]
  refine and_iff_right_of_imp fun ⟨hk, _⟩ => ?_
  rw [← h, State.closeBoundary_frame] at hk
  have hrunning : s.phase = .running := State.running_of_picture (s := s.stepped) hk
  show s.phase ≠ .starting
  rw [hrunning]
  nofun

/-- Line 0 of a tile after a boundary (R138, R147). -/
theorem State.closeBoundary_firstLine (h : s.closeBoundary.frames.get t = f) {requested : Prop} [Decidable requested]
    (hr : requested ↔ f.kind = .picture ∧ 0 < f.panelH) :
    s.closeBoundary.fsc.fetches.get t = (if requested ∧ lineRuns f 0 ≠ [] then
        some ⟨0, s.csu.boundaryAt + Config.ticksPerSecond / s.rateNow.hertz / (f.panelH + 1), lineRuns f 0⟩ else none)
    ∧ s.closeBoundary.cmp.get t = { s.cmp.get t with
        formed := if requested ∧ lineRuns f 0 = [] then some (composeLine s.storeByte s.bgNow f 0) else none } := by
  have hf : s.opened.frames.get t = f := State.opened_frame.trans (State.closeBoundary_frame.symm.trans h)
  have hdue : s.opened.lineDueAt f.panelH 0 = s.csu.boundaryAt + Config.ticksPerSecond / s.rateNow.hertz / (f.panelH + 1) := by
    rw [State.lineDueAt, Nat.zero_add, Nat.one_mul]
    rfl
  have hline : s.opened.formLine t 0 = composeLine s.storeByte s.bgNow f 0 := by
    rw [State.formLine, hf]
    rfl
  have hwants : s.opened.wantsLine t 0 = true ↔ requested := (State.opened_wantsLine h).trans hr.symm
  have hcmp : s.closeBoundary.cmp = s.opened.requestFirstLines.cmp := by
    rw [State.closeBoundary_opened, State.grant_cmp]
  have hopened : s.opened.cmp.get t = { s.cmp.get t with formed := none } := Table.get_mapIdx _ _ _
  have hnone : s.opened.fsc.fetches.get t = none := Table.get_replicate _ _
  obtain ⟨hfetch, hformed⟩ := (State.foldl_requestLine_get (List.finRange 16) 0 s.opened).2 t
  simp only [List.mem_finRange, true_and, hwants, hf, hdue, hline, hopened, hnone] at hfetch hformed
  rw [State.closeBoundary_fetches, hcmp]
  exact ⟨hfetch, hformed⟩

/-! ### What a boundary reports -/

theorem portReports_masks : ReportsTiles s.portReports := fun _ _ hd => changesThrough_masks hd

theorem State.portChanges_stepped {t : TileId} : s.PortChanges s.closeBoundary t ↔ s.portReports t ≠ [] := by
  rw [State.portReports_ne_nil, State.PortChanges, State.closeBoundary_ports, State.stepped_port]

theorem State.reportAll_pair {a b : Detail} : (s.reportAll [a, b]).evb = State.told { s with evb := s.told a } b := by
  unfold State.reportAll State.told
  split
  · rfl
  · rfl

theorem State.reportAll_changeOf {t : TileId} {f : Frame} {old new : PortState} (h : changeOf t f old new ≠ []) :
    (s.reportAll (changeOf t f old new)).evb = s.told (.tileChange t old.name new.name new.attempt f) := by
  have hne : old.name ≠ new.name := fun he => h (if_pos he)
  rw [changeOf, if_neg hne, State.reportAll_single]

/-- The reports of the one port that has changed state (R151). -/
theorem State.reportAll_portReports {t : TileId} (h : s.portReports t ≠ []) : (s.reportAll (s.portReports t)).evb =
    match (s.ports.get t).state with
    | .draining .blackSent true => State.told { s with evb := s.told (.tileChange t .draining .off none s.csu.frame) }
        (.tileChange t .off .powering none s.csu.frame)
    | _ => s.told (.tileChange t (s.ports.get t).state.name (s.portStep t).1.state.name (s.portStep t).1.state.attempt s.csu.frame) := by
  rw [State.portReports_eq] at h ⊢
  split
  · next hs => exact State.reportAll_pair
  · next hn =>
    split at h
    · next hs => exact absurd hs hn
    · exact State.reportAll_changeOf h

/-- FRAME_TICK comes after the reports of the ports. -/
theorem State.closeBoundary_ticked : s.closeBoundary.evb = State.told { s with evb := s.stepPorts.evb } (.frameTick s.csu.frame) :=
  s.closeBoundary_evb

theorem State.stepPorts_reported : s.stepPorts.evb = (s.reportAll (s.tileReports s.portReports)).evb := rfl

theorem State.closeBoundary_masked (h : s.phase ≠ .starting) : s.ChangesMasked s.closeBoundary := by
  have hmasked := (State.changes_reported (s := s) (v := { s.closeBoundary with evb := s.stepPorts.evb }) h (if_neg h) portReports_masks
    fun t => State.portChanges_stepped.symm).1
  intro t ht
  rw [s.closeBoundary_evb, State.report_get_ne s.stepPorts (i := 6) (d := .frameTick s.csu.frame) (by simp [Detail.flag])]
  exact hmasked t ht

end

/-! ### The ports after a boundary -/

theorem Burst.cancelled_whole (b : Burst) : b.cancelled = { b with kind := match b.kind with
    | .fetch t _ => .fetch t true
    | .load => .load } := by
  unfold Burst.cancelled
  obtain ⟨kind, address, length, endsAt⟩ := b
  cases kind <;> rfl

/-- A port at a boundary, by its state (R154 to R157). -/
theorem Port.atBoundary_eq (p : Port) (now milliseconds : Nat) : (p.atBoundary now milliseconds).1 = match p.state with
    | .training a n => if n + 1 < 6 then { p with state := .training a (n + 1), lockSeen := false }
        else if a < 3 then { p with state := .training (a + 1) 0, lockSeen := false }
        else { p with state := .fault, temperature := .ok, lockSeen := false }
    | .up =>
        if p.lockSeen then { p with missed := 0, lockSeen := false }
        else if p.missed + 1 < 3 then { p with missed := p.missed + 1, lockSeen := false }
        else { p with state := .lost, missed := 3, lockSeen := false }
    | .lost => { p with state := .training 1 0, lockSeen := false }
    | .draining .beforeBlack r => { p with state := .draining .blackSent r, lockSeen := false }
    | .draining .blackSent false => { p with state := .off, temperature := .ok, lockSeen := false }
    | .draining .blackSent true => { p with
        state := .powering (now + milliseconds * Config.ticksPerMilli), temperature := .ok, lockSeen := false }
    | _ => { p with lockSeen := false } := by
  cases hs : p.state with
  | training a n =>
    simp only [Port.atBoundary, hs, attemptFail]
    rw [apply_ite Prod.fst, apply_ite Prod.fst]
    rfl
  | up =>
    simp only [Port.atBoundary, hs]
    rw [apply_ite Prod.fst, apply_ite Prod.fst]
  | draining stage restart => cases stage <;> cases restart <;> simp only [Port.atBoundary, hs] <;> rfl
  | off => simp only [Port.atBoundary, hs]
  | powering e => simp only [Port.atBoundary, hs]
  | lost => simp only [Port.atBoundary, hs]; rfl
  | fault => simp only [Port.atBoundary, hs]

/-- What a port puts on its link after a boundary: a port neither UP nor draining has no frame (R151, R160). -/
theorem State.closeBoundary_linkDrive (s : State) (t : TileId) : s.closeBoundary.linkDrive t
    = match (s.closeBoundary.ports.get t).state with
      | .training _ _ => .pattern
      | _ => if (s.closeBoundary.frames.get t).kind = .none then .nothing else .frame (s.closeBoundary.frames.get t).kind := by
  have hnone : (∀ r, (s.closeBoundary.ports.get t).state ≠ .draining .blackSent r) → (s.closeBoundary.ports.get t).state ≠ .up →
      (s.closeBoundary.frames.get t).kind = .none := fun hdrain hup => by
    rw [State.closeBoundary_frame]
    rw [State.closeBoundary_ports] at hdrain hup
    refine State.decideKind_none (fun r hr => hdrain r ?_) hup
    rw [State.stepped_port]
    exact Port.atBoundary_drains hr
  unfold State.linkDrive
  cases hs : (s.closeBoundary.ports.get t).state with
  | training a n => rfl
  | up => rfl
  | draining stage r => rfl
  | off => exact (if_pos (hnone (by rw [hs]; nofun) (by rw [hs]; nofun))).symm
  | powering e => exact (if_pos (hnone (by rw [hs]; nofun) (by rw [hs]; nofun))).symm
  | lost => exact (if_pos (hnone (by rw [hs]; nofun) (by rw [hs]; nofun))).symm
  | fault => exact (if_pos (hnone (by rw [hs]; nofun) (by rw [hs]; nofun))).symm

/-- Settles O47: the boundary's parts in their order, each port's step and frame, the reports, the first lines. -/
theorem framesOpened : Obligations.FramesOpened := by
  unfold Obligations.FramesOpened
  intro s u
  refine ⟨s.closeBoundary_eq, fun h => ?starting, State.closeBoundary_tick s, State.closeBoundary_masked, ⟨fun hnone => ?unchanged, fun t ht honly => ?one⟩,
    fun n => State.closeBoundary_get s, ?enables, State.closeBoundary_fsc, fun b _ => b.cancelled_whole, fun t => ?_⟩
  case starting =>
    rw [State.closeBoundary_ticked, State.told, if_pos h]
    exact if_pos h
  case unchanged =>
    have hsteps : s.stepPorts.evb = s.evb := by
      rw [State.stepPorts_reported, State.tileReports_eq_nil fun t => not_not.1 fun ht => hnone t (State.portChanges_stepped.2 ht),
        State.reportAll_nil]
    rw [State.closeBoundary_ticked, hsteps]
  case one =>
    have hreports : s.portReports t ≠ [] := State.portChanges_stepped.1 ht
    rw [State.closeBoundary_ticked, State.stepPorts_reported,
      State.tileReports_only hreports fun k hk => honly k (State.portChanges_stepped.2 hk), State.reportAll_portReports hreports,
      State.closeBoundary_ports, State.stepped_port]
    rfl
  case enables =>
    obtain ⟨ds, _, hevb⟩ := s.closeBoundary_tells
    rw [hevb, Evb.enables_foldl_record]
  have hframe : u.frames.get t = s.stepped.openFrameOf s.ports t := State.closeBoundary_frame
  have hport : u.ports.get t = (s.portStep t).1 := by rw [State.closeBoundary_ports, State.stepped_port]
  have hlink : u.links.get t = (s.links.get t).begin (headerOf s.csu.frame (u.frames.get t)) := by rw [State.closeBoundary_link, hframe]
  have hheader := LinkOut.begin_headerOf s.csu.frame (u.frames.get t) (s.links.get t)
  refine ⟨hport.trans (Port.atBoundary_eq _ _ _), ?kind, s.closeBoundary_linkDrive t, ?level, by rw [hframe]; rfl, by rw [hframe]; rfl,
    by rw [hframe, hport, ← State.stepped_port]; rfl, ?panelW, ?panelH, fun r hr => ?origin, fun hk => ?bare, fun hk => ?entries,
    fun hk => ?header, fun hk => hlink.trans (hheader.2 hk), State.closeBoundary_firstLine rfl Iff.rfl⟩
  case kind =>
    rw [hport, hframe]
    refine (State.decideKind_eq (s := s.stepped)).trans ?_
    rw [State.stepped_port]
    rfl
  case level =>
    rw [hframe, hport, ← State.stepped_port]
    exact effectiveLevel_eq _ _
  case panelW =>
    rw [hframe]
    exact apply_ite Geometry.panelW _ _ _
  case panelH =>
    rw [hframe]
    exact apply_ite Geometry.panelH _ _ _
  case origin =>
    have horigin : s.stepped.originOf t = (r.x, r.y) := by
      unfold State.originOf
      rw [show s.stepped.held.rects.get t = some r from hr]
    rw [hframe]
    exact ⟨congrArg Prod.fst horigin, congrArg Prod.snd horigin⟩
  case bare =>
    rw [hframe] at hk ⊢
    exact if_neg hk
  case entries =>
    rw [hframe] at hk ⊢
    refine (if_pos hk).trans ?_
    exact List.filterMap_congr fun i _ => State.entryOf_eq s.csu.frame i
  case header =>
    rw [hlink]
    exact hheader.1 hk

end Sys2Proof.Machine
